-- ==== Sys2Proof/Word.lean ====
section
/-! DEFINITION. The widths of the spec (R8): 16-bit counts, 32-bit words, 64-bit commands, and bytes for transport (R100). -/

namespace Sys2Proof

abbrev Byte := BitVec 8

/-- A counter, period, compare or phase register (R8). -/
abbrev Half := BitVec 16

/-- A result, operand word or payload word (R8). -/
abbrev Word := BitVec 32

/-- A whole command: the header word in bits 63:32, the operand word in bits 31:0 (R90). -/
abbrev Command := BitVec 64

/-- `NULL = 0xFFFF_FFFF` (R14). -/
def nullHandle : Word := 0xFFFFFFFF#32

end Sys2Proof
end

