-- ==== Sys2Proof/Config.lean ====
section
/-! DEFINITION. What an implementation fixes (the parameters of R7), the enumerated field values they are made of (R33),
and the free values. A `Config` is plain data: `State` holds one, so a statement about every state is a statement about
every parameter value (log entry 4). The counts `N_GUARDS`, `N_PWM` and `N_CHANNELS` are the lengths of State's banks
(log entry 5). -/

namespace Sys2Proof

/-- Counter mode (R26 field 0, R35 no. 2): 0 is the count-up sawtooth, 1 the count-up-down symmetric mode. -/
inductive CtrMode where
  | up
  | upDown
  deriving DecidableEq, Repr

/-- A load event `LE` (R33). -/
inductive LoadEvent where
  | zero
  | period
  | zeroOrPeriod
  | immediate
  deriving DecidableEq, Repr

/-- An action-qualifier action `ACT` (R33). `noAct` is the spec's `None`. -/
inductive Act where
  | noAct
  | clear
  | set
  | toggle
  deriving DecidableEq, Repr

/-- A continuous software force `FRC` (R33). -/
inductive Force where
  | off
  | forceLow
  | forceHigh
  deriving DecidableEq, Repr

/-- A dead-band output mode `DBM` (R33). -/
inductive DbMode where
  | bypass
  | full
  deriving DecidableEq, Repr

/-- A trip action `TZACT` (R33). -/
inductive TzAct where
  | highZ
  | forceHigh
  | forceLow
  | noAction
  deriving DecidableEq, Repr

/-- A pin level (R33). -/
inductive Pin where
  | low
  | high
  | z
  deriving DecidableEq, Repr

/-- The direction of a guard (R27 `g.DIR`, R122): 0 is HighToLow, 1 is LowToHigh. -/
inductive Direction where
  | highToLow
  | lowToHigh
  deriving DecidableEq, Repr

/-- An execution context (R10); as `FAULT_CTX`, 0 is LO and 1 is HI (R25). -/
inductive Ctx where
  | lo
  | hi
  deriving DecidableEq, Repr

/-- How a period write reaches the active period (R7 `PRD_LOAD`). -/
inductive PrdLoad where
  | immediate
  | zero
  deriving DecidableEq, Repr

/-- The four actions for output A, at zero, at period, at compare counting up and counting down (R35 no. 12, R182). -/
structure AqActions where
  zro : Act
  prd : Act
  cau : Act
  cad : Act
  deriving DecidableEq, Repr

/-- One sequence's row of `AQ_TABLE` (R182). -/
structure AqRow where
  upDown : AqActions
  sawtooth : AqActions
  deriving DecidableEq, Repr

/-- `AQ_TABLE` (R182). -/
structure AqTable where
  seq0 : AqRow
  seq1 : AqRow
  seq2 : AqRow
  seq3 : AqRow
  deriving DecidableEq, Repr

/-- What `PREP_MAP` gives for one value of x (R198). -/
structure PrepEntry where
  dbLoad : LoadEvent
  csfLoad : LoadEvent
  deriving DecidableEq, Repr

/-- The parameter record (R26), the type of `PSTAGE` and of `DEFAULT_PARAMS`. -/
structure Params where
  ctrMode : CtrMode
  period : Half
  dbRed : Half
  dbFed : Half
  dbPol : Bool
  seq : BitVec 2
  cmpLoad : LoadEvent
  deriving DecidableEq, Repr

/-- The parameters of R7 that no step changes. -/
structure Config where
  mgObjSize : Nat
  pwmObjSize : Nat
  payloadWords : Nat
  hasSyncTransition : Bool
  prepMap0 : PrepEntry
  prepMap1 : PrepEntry
  aqTable : AqTable
  dbBits : Nat
  prdLoad : PrdLoad
  defaultParams : Params
  syncIn : Bool
  tripIn : Bool
  ieReset : Bool
  deriving DecidableEq, Repr

/-- One agent's step (R250): the processor's (interrupt entry or the running context, R251), or one of the steps `RAISE`
(R253), `TRIP(ch)` (R222), `SYNC(ch)` (R221), `tick(ch)` (R210). -/
inductive Event where
  | cpu
  | raise
  | trip (ch : Nat)
  | sync (ch : Nat)
  | tick (ch : Nat)
  deriving DecidableEq, Repr, Inhabited

/-- FREE VALUE (log entry 1): the move number `n` of the unending interleaving `stream`. R250 lets any agent move next, so
nothing constrains it, and it need not be fair (R272). -/
opaque Config.freeEvent (stream n : Nat) : Event

/-- FREE VALUE (log entry 6): what payload word `index` of guard `guard` holds at reset. The spec leaves each such word
an independent arbitrary value (R27, R39, R71, R280, U1), so nothing constrains it. -/
opaque Config.payloadAtReset (guard index : Nat) : Word

end Sys2Proof
end

