-- ==== Sys2Proof/Syntax.lean ====
section
/-! DEFINITION. The instructions: one constructor per row of spec/opcode_table.json. Integer operands are integers, as R94
assembles them (handles, indexes, counts and sizes unsigned, harness offsets signed); an operand whose bits are carried on
as bits (a payload word, a Q16.16 fraction) is a `Word`. `WellFormed.lean` says which integers fit their field. -/

namespace Sys2Proof

inductive Instr where
  -- MEMGRD (41_memgrd.md)
  | mgInit (h size : Nat)
  | mgConfig (h : Nat) (dir : Direction)
  | mgBeginw (h : Nat)
  | mgComplw (h : Nat)
  | mgBeginr (h : Nat)
  | mgComplr (h : Nat)
  | mgPldwr (h index : Nat) (value : Word)
  | mgPldrd (h index : Nat)
  -- PWM binding and configuration (42_pwm_config.md)
  | pwmInit (h size : Nat)
  | pwmPdef
  | pwmPset (field value : Nat)
  | pwmConfig (h channel : Nat)
  -- duty, compare, phase and period (43_pwm_modulation.md)
  | pwmSetduty (h : Nat) (duty : Word)
  | pwmSetcmpph (h count : Nat)
  | pwmSetphase (h : Nat) (phase : Word)
  | pwmScaleprd (h : Nat) (factor : Word)
  | pwmGetfull (h : Nat)
  | pwmGetctr (h : Nat)
  | pwmGetdir (h : Nat)
  -- sequence and dead time (44_pwm_sequence.md)
  | pwmSetseq (h seq : Nat)
  | pwmGetseq (h : Nat)
  | pwmSetdt (h red fed : Nat)
  -- output enable, trip zone and transitions (45_pwm_output.md)
  | pwmSettzsafe (h : Nat)
  | pwmEnout (h : Nat)
  | pwmDisout (h : Nat)
  | pwmIsen (h : Nat)
  | pwmSetpassive (h : Nat)
  | pwmSetoper (h : Nat)
  | pwmPrepare (h : Nat)
  -- harness lines (48_harness.md)
  | hBrz (off : Int)
  | hBra (off : Int)
  | hEnd
  deriving DecidableEq, Repr

end Sys2Proof
end

