-- ==== Sys2Proof/WellFormed.lean ====
section
/-! DEFINITION. Which instructions have an encoding: every integer operand fits its field ("An integer that does not fit its
field is an assembly error, not an encoding", R101; the fields are those of R91 and R94). -/

namespace Sys2Proof

/-- A 6-bit handle (R91 `H`). -/
def fitsHandle (h : Nat) : Bool := h < 64

/-- A 16-bit unsigned operand (R91 `IMM`, or half of `OPND`). -/
def fitsHalf (n : Nat) : Bool := n < 65536

/-- A 32-bit unsigned operand (R91 `OPND`). -/
def fitsWord (n : Nat) : Bool := n < 4294967296

/-- A signed 16-bit count of commands (R94 `off`). -/
def fitsOffset (off : Int) : Bool := -32768 ≤ off && off < 32768

def Instr.wf : Instr → Bool
  | .mgInit h size => fitsHandle h && fitsWord size
  | .mgConfig h _ => fitsHandle h
  | .mgBeginw h => fitsHandle h
  | .mgComplw h => fitsHandle h
  | .mgBeginr h => fitsHandle h
  | .mgComplr h => fitsHandle h
  | .mgPldwr h index _ => fitsHandle h && fitsHalf index
  | .mgPldrd h index => fitsHandle h && fitsHalf index
  | .pwmInit h size => fitsHandle h && fitsWord size
  | .pwmPdef => true
  | .pwmPset field value => fitsHalf field && fitsWord value
  | .pwmConfig h channel => fitsHandle h && fitsHalf channel
  | .pwmSetduty h _ => fitsHandle h
  | .pwmSetcmpph h count => fitsHandle h && fitsHalf count
  | .pwmSetphase h _ => fitsHandle h
  | .pwmScaleprd h _ => fitsHandle h
  | .pwmGetfull h => fitsHandle h
  | .pwmGetctr h => fitsHandle h
  | .pwmGetdir h => fitsHandle h
  | .pwmSetseq h seq => fitsHandle h && fitsHalf seq
  | .pwmGetseq h => fitsHandle h
  | .pwmSetdt h red fed => fitsHandle h && fitsHalf red && fitsHalf fed
  | .pwmSettzsafe h => fitsHandle h
  | .pwmEnout h => fitsHandle h
  | .pwmDisout h => fitsHandle h
  | .pwmIsen h => fitsHandle h
  | .pwmSetpassive h => fitsHandle h
  | .pwmSetoper h => fitsHandle h
  | .pwmPrepare h => fitsHandle h
  | .hBrz off => fitsOffset off
  | .hBra off => fitsOffset off
  | .hEnd => true

end Sys2Proof
end

