-- ==== Sys2Proof/Decode.lean ====
section
/-! DEFINITION. Decoding (R90-R100) and, after it, the encoder written from the same table (R95). Decoding is total: every
64-bit command, and every string of bytes, gives an instruction or a refusal by name. -/

namespace Sys2Proof

/-- Why a command, or a string of bytes, is no instruction. -/
inductive DecodeError where
  /-- a reserved opcode (R96), or a harness opcode at the block's command port (R97) -/
  | illegalOpcode
  /-- a must-be-zero field is not zero (R93) -/
  | reservedField
  /-- fewer than the eight bytes of a command (R90, R100) -/
  | truncated
  deriving DecidableEq, Repr

/-- What decoding answers. -/
inductive Decoded where
  | instr (i : Instr)
  | bad (e : DecodeError)
  deriving DecidableEq, Repr

/-! ## Fields (R91) -/

def opField (c : Command) : BitVec 6 := c.extractLsb' 58 6
def hField (c : Command) : BitVec 6 := c.extractLsb' 52 6
def rsvField (c : Command) : BitVec 4 := c.extractLsb' 48 4
def immField (c : Command) : BitVec 16 := c.extractLsb' 32 16
def opndField (c : Command) : BitVec 32 := c.extractLsb' 0 32

/-! ## Operand assembly (R94) -/

/-- handle `h = zext(H)` -/
def handleOf (c : Command) : Nat := (hField c).toNat

/-- 16-bit operand `imm = zext_32(IMM)` -/
def immOf (c : Command) : Nat := (immField c).toNat

/-- harness offset `off = sext(IMM)` -/
def offsetOf (c : Command) : Int := (immField c).toInt

/-- packed count `red = OPND[15:0]` -/
def redOf (c : Command) : Nat := ((opndField c).extractLsb' 0 16).toNat

/-- packed count `fed = OPND[31:16]` -/
def fedOf (c : Command) : Nat := ((opndField c).extractLsb' 16 16).toNat

/-- direction bit `dir = IMM[0]` (R122) -/
def directionOf (c : Command) : Direction := if (immField c).getLsbD 0 then .lowToHigh else .highToLow

/-! ## Formats (R92, R93): which fields must be zero -/

/-- The reserved-field check: the command is `i` if every must-be-zero field is zero. -/
def checked (zero : Bool) (i : Instr) : Decoded := if zero then .instr i else .bad .reservedField

def rsvZero (c : Command) : Bool := rsvField c == 0#4
def hZero (c : Command) : Bool := hField c == 0#6
def immZero (c : Command) : Bool := immField c == 0#16
def opndZero (c : Command) : Bool := opndField c == 0#32

/-- format `N`: handle -/
def formatN (c : Command) : Bool := rsvZero c && immZero c && opndZero c
/-- format `I`: handle, `IMM` -/
def formatI (c : Command) : Bool := rsvZero c && opndZero c
/-- format `W`: handle, `OPND` -/
def formatW (c : Command) : Bool := rsvZero c && immZero c
/-- format `IW`: handle, `IMM`, `OPND` -/
def formatIW (c : Command) : Bool := rsvZero c
/-- formats `Z` and `E`: no operand, no handle -/
def formatZ (c : Command) : Bool := rsvZero c && hZero c && immZero c && opndZero c
/-- format `B`: signed offset, no handle -/
def formatB (c : Command) : Bool := rsvZero c && hZero c && opndZero c
/-- MG.CONFIG is `I` with `IMM[15:1]` zero besides (R93). -/
def formatDir (c : Command) : Bool := formatI c && (immField c).extractLsb' 1 15 == 0#15
/-- PWM.PSET is `IW` with `H` zero besides (R93). -/
def formatPset (c : Command) : Bool := formatIW c && hZero c

/-! ## The decoders -/

/-- The block's decoder (R99): the table of R95 without the harness opcodes. -/
def decodeBlock (c : Command) : Decoded :=
  match (opField c).toNat with
  | 0x01 => checked (formatW c) (.mgInit (handleOf c) (opndField c).toNat)
  | 0x02 => checked (formatDir c) (.mgConfig (handleOf c) (directionOf c))
  | 0x03 => checked (formatN c) (.mgBeginw (handleOf c))
  | 0x04 => checked (formatN c) (.mgComplw (handleOf c))
  | 0x05 => checked (formatN c) (.mgBeginr (handleOf c))
  | 0x06 => checked (formatN c) (.mgComplr (handleOf c))
  | 0x07 => checked (formatIW c) (.mgPldwr (handleOf c) (immOf c) (opndField c))
  | 0x08 => checked (formatI c) (.mgPldrd (handleOf c) (immOf c))
  | 0x10 => checked (formatW c) (.pwmInit (handleOf c) (opndField c).toNat)
  | 0x11 => checked (formatZ c) .pwmPdef
  | 0x12 => checked (formatPset c) (.pwmPset (immOf c) (opndField c).toNat)
  | 0x13 => checked (formatI c) (.pwmConfig (handleOf c) (immOf c))
  | 0x14 => checked (formatW c) (.pwmSetduty (handleOf c) (opndField c))
  | 0x15 => checked (formatI c) (.pwmSetcmpph (handleOf c) (immOf c))
  | 0x16 => checked (formatW c) (.pwmSetphase (handleOf c) (opndField c))
  | 0x17 => checked (formatW c) (.pwmScaleprd (handleOf c) (opndField c))
  | 0x18 => checked (formatN c) (.pwmGetfull (handleOf c))
  | 0x19 => checked (formatN c) (.pwmGetctr (handleOf c))
  | 0x1A => checked (formatN c) (.pwmGetdir (handleOf c))
  | 0x1B => checked (formatI c) (.pwmSetseq (handleOf c) (immOf c))
  | 0x1C => checked (formatN c) (.pwmGetseq (handleOf c))
  | 0x1D => checked (formatW c) (.pwmSetdt (handleOf c) (redOf c) (fedOf c))
  | 0x1E => checked (formatN c) (.pwmSettzsafe (handleOf c))
  | 0x1F => checked (formatN c) (.pwmEnout (handleOf c))
  | 0x20 => checked (formatN c) (.pwmDisout (handleOf c))
  | 0x21 => checked (formatN c) (.pwmIsen (handleOf c))
  | 0x22 => checked (formatN c) (.pwmSetpassive (handleOf c))
  | 0x23 => checked (formatN c) (.pwmSetoper (handleOf c))
  | 0x24 => checked (formatN c) (.pwmPrepare (handleOf c))
  | _ => .bad .illegalOpcode

/-- The three harness opcodes (R97). -/
def isHarnessOp (c : Command) : Bool :=
  opField c == 0x3C#6 || opField c == 0x3D#6 || opField c == 0x3E#6

/-- The harness's own decoder for its three lines (R240): reserved fields are checked like a command's. -/
def decodeHarness (c : Command) : Decoded :=
  match (opField c).toNat with
  | 0x3C => checked (formatB c) (.hBrz (offsetOf c))
  | 0x3D => checked (formatB c) (.hBra (offsetOf c))
  | 0x3E => checked (formatZ c) .hEnd
  | _ => .bad .illegalOpcode

/-- What a fetched command is (R240): a harness line if its opcode is one, else whatever the block's decoder says. -/
def decode (c : Command) : Decoded := if isHarnessOp c then decodeHarness c else decodeBlock c

/-! ## Transport (R73, R100) -/

/-- The four bytes of a word, least significant first. -/
def wordBytes (w : Word) : List Byte :=
  [w.extractLsb' 0 8, w.extractLsb' 8 8, w.extractLsb' 16 8, w.extractLsb' 24 8]

/-- The eight bytes of a command: the header word's, then the operand word's (R100). -/
def commandBytes (c : Command) : List Byte := wordBytes (c.extractLsb' 32 32) ++ wordBytes (opndField c)

/-- A word from its four bytes, least significant first. -/
def wordOfBytes (b0 b1 b2 b3 : Byte) : Word := b3 ++ b2 ++ b1 ++ b0

/-- A decoded instruction and the bytes after it. -/
def decodeBytes : List Byte → Decoded × List Byte
  | h0 :: h1 :: h2 :: h3 :: o0 :: o1 :: o2 :: o3 :: rest =>
    (decode (wordOfBytes h0 h1 h2 h3 ++ wordOfBytes o0 o1 o2 o3), rest)
  | short => (.bad .truncated, short)

/-- The instruction the decoder reads from a table row's bits (log entry 9: a command is one 64-bit word, bit 0 the least
significant bit of its operand word, as spec/opcode_table.json numbers it), by way of its bytes in transport order. -/
def decodeTableWord (nbits w : Nat) : Option Instr :=
  match decodeBytes (commandBytes (BitVec.ofNat 64 (w % 2 ^ nbits))) with
  | (.instr i, _) => some i
  | (.bad _, _) => none

/-! ## The encoder (R91, R92, R95) -/

/-- A command from its fields; `RSV` is zero. -/
def command (op h imm : Nat) (opnd : Word) : Command :=
  BitVec.ofNat 6 op ++ BitVec.ofNat 6 h ++ 0#4 ++ BitVec.ofNat 16 imm ++ opnd

/-- `IMM` of MG.CONFIG (R122). -/
def directionBit : Direction → Nat
  | .highToLow => 0
  | .lowToHigh => 1

/-- `IMM` of a harness branch: the offset in two's complement (R94). -/
def offsetImm (off : Int) : Nat := (BitVec.ofInt 16 off).toNat

/-- `OPND` of PWM.SETDT: `fed` in the high half, `red` in the low half (R94). -/
def packCounts (red fed : Nat) : Word := BitVec.ofNat 16 fed ++ BitVec.ofNat 16 red

/-- The 64-bit command of an instruction (R95). -/
def encode : Instr → Command
  | .mgInit h size => command 0x01 h 0 (BitVec.ofNat 32 size)
  | .mgConfig h dir => command 0x02 h (directionBit dir) 0
  | .mgBeginw h => command 0x03 h 0 0
  | .mgComplw h => command 0x04 h 0 0
  | .mgBeginr h => command 0x05 h 0 0
  | .mgComplr h => command 0x06 h 0 0
  | .mgPldwr h index value => command 0x07 h index value
  | .mgPldrd h index => command 0x08 h index 0
  | .pwmInit h size => command 0x10 h 0 (BitVec.ofNat 32 size)
  | .pwmPdef => command 0x11 0 0 0
  | .pwmPset field value => command 0x12 0 field (BitVec.ofNat 32 value)
  | .pwmConfig h channel => command 0x13 h channel 0
  | .pwmSetduty h duty => command 0x14 h 0 duty
  | .pwmSetcmpph h count => command 0x15 h count 0
  | .pwmSetphase h phase => command 0x16 h 0 phase
  | .pwmScaleprd h factor => command 0x17 h 0 factor
  | .pwmGetfull h => command 0x18 h 0 0
  | .pwmGetctr h => command 0x19 h 0 0
  | .pwmGetdir h => command 0x1A h 0 0
  | .pwmSetseq h seq => command 0x1B h seq 0
  | .pwmGetseq h => command 0x1C h 0 0
  | .pwmSetdt h red fed => command 0x1D h 0 (packCounts red fed)
  | .pwmSettzsafe h => command 0x1E h 0 0
  | .pwmEnout h => command 0x1F h 0 0
  | .pwmDisout h => command 0x20 h 0 0
  | .pwmIsen h => command 0x21 h 0 0
  | .pwmSetpassive h => command 0x22 h 0 0
  | .pwmSetoper h => command 0x23 h 0 0
  | .pwmPrepare h => command 0x24 h 0 0
  | .hBrz off => command 0x3C 0 (offsetImm off) 0
  | .hBra off => command 0x3D 0 (offsetImm off) 0
  | .hEnd => command 0x3E 0 0 0

end Sys2Proof
end

