-- ==== Sys2Proof/Machine/Parts.lean ====
section
/-! DEFINITION. The records State is made of (R21, R22, R27, R30, R35), the schedule of the agents' moves (R250), and each record's reset
value (R280). -/

namespace Sys2Proof.Machine

/-- An execution context: `RES[ctx]` (R21), `PC[ctx]` (R22, an unbounded command index) and `PROG[ctx]` (R70, R240). -/
structure Context where
  res : Word
  pc : Nat
  prog : List Command
  deriving DecidableEq, Repr

/-- The payload words of one guard that have been written: (index, word), indexes strictly rising. A word not listed has
no stored value (R71; log entries 6 and 7). -/
abbrev Payload := List (Nat × Word)

/-- A MEMGRD guard (R27). -/
structure Guard where
  init : Bool
  conf : Bool
  dir : Direction
  ready : Bool
  saved : Bool
  payload : Payload
  deriving DecidableEq, Repr

/-- A PWM leg-controller instance (R30); `ch = 0` is no channel. -/
structure PwmInst where
  init : Bool
  conf : Bool
  ch : Half
  nomPrd : Half
  seq : BitVec 2
  deriving DecidableEq, Repr

/-- The software force of outputs A and B (R35 nos. 15, 16). -/
structure ForcePair where
  a : Force
  b : Force
  deriving DecidableEq, Repr

/-- A PWM channel's register cluster, in the order of R35. `bound = none` is the spec's NONE (127); `dbRed`, `dbFed`,
`hiRun` and `loRun` are counts whose widths are the parameter `DB_BITS` (log entry 14). -/
structure Channel where
  bound : Option Nat
  run : Bool
  ctrMode : CtrMode
  prd : Half
  prdSh : Half
  ctr : Half
  ctrDir : Bool
  phs : Half
  phsDir : Bool
  cmpa : Half
  cmpaSh : Half
  cmpLoad : LoadEvent
  aqa : AqActions
  aqla : Bool
  aqlb : Bool
  csf : ForcePair
  csfSh : ForcePair
  csfLoad : LoadEvent
  dbRed : Nat
  dbFed : Nat
  dbPol : Bool
  dbOut : DbMode
  dbOutSh : DbMode
  dbLoad : LoadEvent
  hiRun : Nat
  loRun : Nat
  tzA : TzAct
  tzB : TzAct
  tzOst : Bool
  pinA : Pin
  pinB : Pin
  deriving DecidableEq, Repr

/-- Whose steps come after the listed ones (log entry 1): a round taken again and again, the processor's alone if the round
is empty; or the moves of the free interleaving `stream` from number `next` on. -/
inductive Onward where
  | cycle (round : List Event)
  | free (stream next : Nat)
  deriving DecidableEq, Repr

/-- Whose steps come (R250, log entry 1): the listed moves, then what `onward` says, for ever. -/
structure Schedule where
  listed : List Event
  onward : Onward
  deriving DecidableEq, Repr

/-- The processor's steps alone. -/
def processorOnly : Schedule := { listed := [], onward := .cycle [] }

/-- `RUNMAX = 2^DB_BITS` (R34). -/
def runMax (c : Config) : Nat := 2 ^ c.dbBits

/-- `DB_MAX = 2^DB_BITS - 1` (R34). -/
def dbMax (c : Config) : Nat := 2 ^ c.dbBits - 1

/-- A context at reset (R280), its program given by the host (R271). -/
def resetContext (prog : List Command) : Context := { res := 0, pc := 0, prog := prog }

/-- A guard at reset (R280): no payload word is written. -/
def resetGuard : Guard :=
  { init := false, conf := false, dir := .highToLow, ready := false, saved := false, payload := [] }

/-- An instance at reset (R280). -/
def resetInst : PwmInst := { init := false, conf := false, ch := 0, nomPrd := 0, seq := 0 }

/-- No action at any event. -/
def noActions : AqActions := { zro := .noAct, prd := .noAct, cau := .noAct, cad := .noAct }

/-- No software force. -/
def noForce : ForcePair := { a := .off, b := .off }

/-- A channel at reset (R280). -/
def resetChannel (c : Config) : Channel :=
  { bound := none, run := false, ctrMode := .up, prd := 0, prdSh := 0, ctr := 0, ctrDir := true, phs := 0, phsDir := true,
    cmpa := 0, cmpaSh := 0, cmpLoad := .zero, aqa := noActions, aqla := false, aqlb := false,
    csf := noForce, csfSh := noForce, csfLoad := .zero,
    dbRed := 0, dbFed := 0, dbPol := false, dbOut := .bypass, dbOutSh := .bypass, dbLoad := .zero,
    hiRun := 0, loRun := runMax c, tzA := .highZ, tzB := .highZ, tzOst := true, pinA := .z, pinB := .z }

end Sys2Proof.Machine
end

