-- ==== Sys2Proof/Machine/Runner.lean ====
section
/-! DEFINITION. The runner defaults of the parameters (R7), which `State.reset` takes (log entry 4). -/

namespace Sys2Proof.Machine

/-- `DEFAULT_PARAMS` (R141). -/
def runnerParams : Params :=
  { ctrMode := .upDown, period := 1000, dbRed := 0, dbFed := 0, dbPol := false, seq := 1, cmpLoad := .zero }

/-- `AQ_TABLE` (R182). -/
def runnerAqTable : AqTable :=
  { seq0 := { upDown := ⟨.clear, .set, .set, .clear⟩, sawtooth := ⟨.clear, .noAct, .set, .noAct⟩ },
    seq1 := { upDown := ⟨.set, .clear, .clear, .set⟩, sawtooth := ⟨.set, .noAct, .clear, .noAct⟩ },
    seq2 := { upDown := ⟨.noAct, .noAct, .set, .clear⟩, sawtooth := ⟨.noAct, .noAct, .set, .noAct⟩ },
    seq3 := { upDown := ⟨.noAct, .noAct, .clear, .set⟩, sawtooth := ⟨.noAct, .noAct, .clear, .noAct⟩ } }

/-- The parameters of R7 at their runner defaults; `PREP_MAP` is R198's. -/
def runnerConfig : Config :=
  { mgObjSize := 4, pwmObjSize := 16, payloadWords := 4, hasSyncTransition := true,
    prepMap0 := ⟨.zero, .zero⟩, prepMap1 := ⟨.zeroOrPeriod, .zeroOrPeriod⟩,
    aqTable := runnerAqTable, dbBits := 10, prdLoad := .zero, defaultParams := runnerParams,
    syncIn := true, tripIn := true, ieReset := true }

/-- `N_GUARDS` -/
def runnerGuards : Nat := 4

/-- `N_PWM` -/
def runnerPwm : Nat := 4

/-- `N_CHANNELS` -/
def runnerChannels : Nat := 8

end Sys2Proof.Machine
end

