-- ==== Sys2Proof/Machine/State.lean ====
section
/-! DEFINITION. The state of the machine: everything the spec gives it (INVENTORY.md, '## State'), as plain data; the
reasons a step can stop; and the state after reset (R280). -/

namespace Sys2Proof.Machine

structure State where
  /-- the parameters (R7); no step changes them -/
  cfg : Config
  /-- context LO: `RES[LO]`, `PC[LO]`, `PROG[LO]` -/
  lo : Context
  /-- context HI: `RES[HI]`, `PC[HI]`, `PROG[HI]` -/
  hi : Context
  /-- `IE` (R23) -/
  ie : Bool
  /-- `IRQ_PEND` (R24) -/
  irqPend : Bool
  /-- `HI_ACTIVE` (R24) -/
  hiActive : Bool
  /-- `IE_AT_ENTRY` (R24) -/
  ieAtEntry : Bool
  /-- `LO_DONE` (R24) -/
  loDone : Bool
  /-- `FAULTED` (R25) -/
  faulted : Bool
  /-- `FAULT_CAUSE` (R25) -/
  faultCause : BitVec 8
  /-- `FAULT_CMD` (R25) -/
  faultCmd : Command
  /-- `FAULT_CTX` (R25) -/
  faultCtx : Ctx
  /-- `PSTAGE` (R26) -/
  pstage : Params
  /-- the guards 0 .. N_GUARDS-1 (R27) -/
  guards : List Guard
  /-- the instances 0 .. N_PWM-1 (R30) -/
  insts : List PwmInst
  /-- the channels 1 .. N_CHANNELS (R35); channel c stands at place c-1 -/
  chans : List Channel
  /-- THE MODEL'S OWN (log entry 1): whose steps come, from the next one on without end -/
  sched : Schedule
  deriving DecidableEq, Repr

/-- Why the model stops. The spec's own fault-stop (R256) is a next state, never one of these. -/
inductive Fault where
  /-- Raised by a PWM command whose configured instance names a channel that does not exist (`p.CH` is 0 or above
  N_CHANNELS). R37 rules such a state out, and no reachable state is one (log entry 11). Safe: the model stops where the
  spec gives no effect. -/
  | noSuchChannel (ch : Nat)
  deriving DecidableEq, Repr

/-- Why the model gives no meaning. -/
inductive Refusal where
  /-- Raised by an arm of `exec` whose instruction has no meaning yet; no arm is one now. Safe: nothing is said. -/
  | notModelled (mnemonic : String)
  deriving DecidableEq, Repr

/-- What a meaning answers. -/
abbrev Out := Host.Outcome State Fault Refusal

/-- Reset (R280) for given parameters and the programs the host loads with it (R271). -/
def State.resetOf (c : Config) (nGuards nPwm nChannels : Nat) (progLo progHi : List Command) : State :=
  { cfg := c, lo := resetContext progLo, hi := resetContext progHi,
    ie := c.ieReset, irqPend := false, hiActive := false, ieAtEntry := false, loDone := false,
    faulted := false, faultCause := 0, faultCmd := 0, faultCtx := .lo,
    pstage := c.defaultParams,
    guards := List.replicate nGuards resetGuard, insts := List.replicate nPwm resetInst,
    chans := List.replicate nChannels (resetChannel c), sched := processorOnly }

/-- The machine right after reset, at the runner defaults (log entry 4), no program loaded (log entry 8). -/
def State.reset : State := State.resetOf runnerConfig runnerGuards runnerPwm runnerChannels [] []

end Sys2Proof.Machine
end

