-- ==== Sys2Proof/Machine/Flags.lean ====
section
/-! DEFINITION. The block has no condition flags (R14, R21): its boolean results are words, and what a manual would call
flags are these derived bits of State (R29, R31, R32) and the codes of the enumerated fields (R33) and fault causes (R257). -/

namespace Sys2Proof.Machine

/-- A boolean as a result word (R14). -/
def boolWord (b : Bool) : Word := if b then 1 else 0

/-- Sequence parity (R31): true is odd, positive logic. -/
def seqOdd (seq : BitVec 2) : Bool := seq.getLsbD 0

/-- Forcing bit of a sequence (R31): true is unforced (sequences 2 and 3). -/
def seqUnforced (seq : BitVec 2) : Bool := seq.getLsbD 1

/-- `TransitionPending` (R32): a transition is written to shadows and not yet loaded. -/
def transitionPending (ch : Channel) : Bool := ch.csfSh != ch.csf || ch.dbOutSh != ch.dbOut

/-- The writer may claim the payload (R29). -/
def writerMayClaim (g : Guard) : Bool := !g.ready

/-- The reader may claim the payload (R29). -/
def readerMayClaim (g : Guard) : Bool := g.ready

/-- The causes of a fault-stop (R257). -/
inductive Cause where
  | illegalOpcode
  | reservedField
  | badHandle
  | uninit
  | unconfigured
  | badChannel
  | channelAlias
  | badSequence
  | badScale
  | unsupported
  | badParam
  | badIndex
  deriving DecidableEq, Repr

/-- `FAULT_CAUSE` of a cause (R257). -/
def causeCode : Cause → BitVec 8
  | .illegalOpcode => 0x01
  | .reservedField => 0x02
  | .badHandle => 0x03
  | .uninit => 0x04
  | .unconfigured => 0x05
  | .badChannel => 0x06
  | .channelAlias => 0x07
  | .badSequence => 0x08
  | .badScale => 0x09
  | .unsupported => 0x0A
  | .badParam => 0x0B
  | .badIndex => 0x0C

/-! The codes of R33. Software writes one of them, `LE`, through PWM.PSET; the rest are what an observer reads. -/

def ctrModeCode : CtrMode → BitVec 1
  | .up => 0
  | .upDown => 1

def loadEventCode : LoadEvent → BitVec 2
  | .zero => 0
  | .period => 1
  | .zeroOrPeriod => 2
  | .immediate => 3

def actCode : Act → BitVec 2
  | .noAct => 0
  | .clear => 1
  | .set => 2
  | .toggle => 3

def forceCode : Force → BitVec 2
  | .off => 0
  | .forceLow => 1
  | .forceHigh => 2

def dbModeCode : DbMode → BitVec 1
  | .bypass => 0
  | .full => 1

def tzActCode : TzAct → BitVec 2
  | .highZ => 0
  | .forceHigh => 1
  | .forceLow => 2
  | .noAction => 3

/-- `ch.BOUND` as its 7 bits (R35 no. 0). -/
def boundCode : Option Nat → BitVec 7
  | some p => BitVec.ofNat 7 p
  | none => 127

end Sys2Proof.Machine
end

