-- ==== Sys2Proof/Machine/Operands.lean ====
section
/-! DEFINITION. What commands make of their operands: Q16.16 fractions (R12, R94) as integer numerators over 65536, so that
every product is exact and `floor` is integer division (log entry 13); full scale (R161); and the parameter fields (R26). -/

namespace Sys2Proof.Machine

/-- The numerator of `q(w) = sext_32(w) / 65536` (R12). -/
def qNum (w : Word) : Int := w.toInt

/-- One, as a numerator. -/
def qOne : Int := 65536

/-- `floor(n / 65536)` (R12): the divisor is positive, so integer division is floor. -/
def floorQ (n : Int) : Int := n / 65536

/-- `clamp(v, lo, hi)` (R12). -/
def clampInt (v lo hi : Int) : Int := min (max v lo) hi

/-- `FS(M, P)` (R161). -/
def fullScale (m : CtrMode) (p : Nat) : Nat :=
  match m with
  | .up => p + 1
  | .upDown => p

/-- The compare count of a duty fraction (R162): clamp to [0,1], invert for an even sequence, scale, floor, cut to 16 bits. -/
def dutyCount (seq : BitVec 2) (fs : Nat) (duty : Word) : Nat :=
  let d := clampInt (qNum duty) 0 qOne
  let d := if seqOdd seq then d else qOne - d
  min (floorQ (d * fs)).toNat 65535

/-- A phase fraction, collapsed to zero outside [0,1) (R164, C1), as a numerator. -/
def phaseNum (phase : Word) : Int :=
  if qNum phase < 0 ∨ qNum phase ≥ qOne then 0 else qNum phase

/-- `PHS` and `PHSDIR` of a phase fraction (R164). -/
def phaseRegisters (m : CtrMode) (p : Nat) (phase : Word) : Nat × Bool :=
  let ph := phaseNum phase
  match m with
  | .upDown =>
    if ph * 2 ≤ qOne then ((floorQ (p * ph * 2)).toNat, true)
    else ((floorQ (p * (qOne - ph) * 2)).toNat, false)
  | .up =>
    let v := (floorQ ((p + 1) * (qOne - ph))).toNat
    (if v > p then 0 else v, true)

/-- The scaled period (R165): the same mapping as full scale, floored, then clamped to 1..65535 (C6). -/
def scaledPeriod (m : CtrMode) (nominal : Nat) (factor : Word) : Nat :=
  let x := match m with
    | .upDown => nominal * qNum factor
    | .up => (nominal + 1) * qNum factor - qOne
  (clampInt (floorQ x) 1 65535).toNat

/-- A staged one-bit value (R26). -/
def bitOfValue (value : Nat) : Option Bool :=
  match value with
  | 0 => some false
  | 1 => some true
  | _ => none

/-- A staged counter mode (R26 field 0). -/
def ctrModeOfValue (value : Nat) : Option CtrMode :=
  match value with
  | 0 => some .up
  | 1 => some .upDown
  | _ => none

/-- A staged compare load event (R26 field 6): Immediate is not offered. -/
def cmpLoadOfValue (value : Nat) : Option LoadEvent :=
  match value with
  | 0 => some .zero
  | 1 => some .period
  | 2 => some .zeroOrPeriod
  | _ => none

/-- A staged count of 16 bits, at least `least` (R26 fields 1 to 3). -/
def countOfValue (least value : Nat) : Option Half :=
  if least ≤ value ∧ value ≤ 65535 then some (BitVec.ofNat 16 value) else none

/-- `PSTAGE` with one field set, or nothing if the field or its value is not legal (R26, R142). -/
def stageParam (p : Params) (field value : Nat) : Option Params :=
  match field with
  | 0 => (ctrModeOfValue value).map fun v => { p with ctrMode := v }
  | 1 => (countOfValue 1 value).map fun v => { p with period := v }
  | 2 => (countOfValue 0 value).map fun v => { p with dbRed := v }
  | 3 => (countOfValue 0 value).map fun v => { p with dbFed := v }
  | 4 => (bitOfValue value).map fun v => { p with dbPol := v }
  | 5 => if value ≤ 3 then some { p with seq := BitVec.ofNat 2 value } else none
  | 6 => (cmpLoadOfValue value).map fun v => { p with cmpLoad := v }
  | _ => none

/-- The row of `AQ_TABLE` for a sequence (R182). -/
def aqRow (t : AqTable) (seq : BitVec 2) : AqRow :=
  match seq.toNat with
  | 0 => t.seq0
  | 1 => t.seq1
  | 2 => t.seq2
  | _ => t.seq3

/-- `AQ_TABLE(s, M)` (R182). -/
def aqActions (t : AqTable) (seq : BitVec 2) (m : CtrMode) : AqActions :=
  match m with
  | .up => (aqRow t seq).sawtooth
  | .upDown => (aqRow t seq).upDown

/-- `PREP_MAP(x)` (R198). -/
def prepMap (c : Config) (x : Bool) : PrepEntry := if x then c.prepMap1 else c.prepMap0

end Sys2Proof.Machine
end

