-- ==== Sys2Proof/Machine/Ops.lean ====
section
/-! DEFINITION. The named operations every meaning is made of: the contexts' registers, the banks, the payload memory, the
fault-stop and the interrupt's entry and return, and the common checks of a command. -/

namespace Sys2Proof.Machine

/-! ## Contexts (R21, R22, R251) -/

/-- The record of a context. -/
def ctxOf (s : State) (c : Ctx) : Context :=
  match c with
  | .lo => s.lo
  | .hi => s.hi

/-- Write the record of a context. -/
def setCtx (c : Ctx) (x : Context) (s : State) : State :=
  match c with
  | .lo => { s with lo := x }
  | .hi => { s with hi := x }

/-- The issuing context of a command, `ctx` of R13: HI while it is active, else LO (R251). -/
def issuer (s : State) : Ctx := if s.hiActive then .hi else .lo

/-- The running context (R251). -/
def running (s : State) : Option Ctx :=
  if s.faulted then none
  else if s.hiActive then some .hi
  else if s.loDone then none
  else some .lo

/-- `RES[ctx] <- v` (R13, R21). -/
def setRes (v : Word) (s : State) : State := setCtx (issuer s) { ctxOf s (issuer s) with res := v } s

/-- `PC[ctx] <- n` (R13, R22). -/
def setPc (n : Nat) (s : State) : State := setCtx (issuer s) { ctxOf s (issuer s) with pc := n } s

/-- `PC[ctx] <- PC[ctx] + 1` (R240). -/
def advance (s : State) : State := setPc ((ctxOf s (issuer s)).pc + 1) s

/-- A command that returns nothing completes (R21, R240). -/
def finish (s : State) : Out := .next (advance s)

/-- A command that returns `v` completes (R21, R240). -/
def finishWith (v : Word) (s : State) : Out := .next (advance (setRes v s))

/-! ## Banks -/

/-- `IE <- b` (R23). -/
def setIe (b : Bool) (s : State) : State := { s with ie := b }

/-- `PSTAGE <- p` (R26). -/
def setPstage (p : Params) (s : State) : State := { s with pstage := p }

/-- Write guard `h` (R27). -/
def setGuard (h : Nat) (g : Guard) (s : State) : State := { s with guards := s.guards.set h g }

/-- Write instance `h` (R30). -/
def setInst (h : Nat) (p : PwmInst) (s : State) : State := { s with insts := s.insts.set h p }

/-- Channel `c` of a bank of channels numbered from 1 (R35); there is no channel 0. -/
def chanAt (l : List Channel) (c : Nat) : Option Channel :=
  match c with
  | 0 => none
  | k + 1 => l[k]?

/-- The bank with channel `c` written. -/
def chanPut (l : List Channel) (c : Nat) (ch : Channel) : List Channel :=
  match c with
  | 0 => l
  | k + 1 => l.set k ch

/-- The cluster of channel `c`, if the channel exists. -/
def chan? (s : State) (c : Nat) : Option Channel := chanAt s.chans c

/-- Write the cluster of channel `c`. -/
def setChan (c : Nat) (ch : Channel) (s : State) : State := { s with chans := chanPut s.chans c ch }

/-- Change the cluster of channel `c`; nothing happens if there is no such channel. -/
def modifyChan (c : Nat) (f : Channel → Channel) (s : State) : State :=
  match chan? s c with
  | some ch => setChan c (f ch) s
  | none => s

/-- `channel(c).BOUND <- NONE` (R140, R144); nothing if there is no such channel (log entry 12). -/
def unbind (c : Nat) (s : State) : State := modifyChan c (fun ch => { ch with bound := none }) s

/-! ## Payload memory (R70, R71) -/

/-- The stored word at an index, if one has been written. -/
def payloadStored : Payload → Nat → Option Word
  | [], _ => none
  | (k, v) :: rest, i => if k = i then some v else payloadStored rest i

/-- Store a word, keeping the indexes strictly rising. -/
def payloadStore : Payload → Nat → Word → Payload
  | [], i, w => [(i, w)]
  | (k, v) :: rest, i, w =>
    if i < k then (i, w) :: (k, v) :: rest
    else if i = k then (i, w) :: rest
    else (k, v) :: payloadStore rest i w

/-- `MemRead(g, i)` of the guard numbered `h` (R71): a word not written since reset is the free value of that word. -/
def memRead (h : Nat) (g : Guard) (i : Nat) : Word := (payloadStored g.payload i).getD (Config.payloadAtReset h i)

/-- `MemWrite(g, i, v)` (R71). -/
def memWrite (g : Guard) (i : Nat) (v : Word) : Guard := { g with payload := payloadStore g.payload i v }

/-- Every index is above `k`, and they rise strictly. -/
def payloadRising (k : Nat) : Payload → Bool
  | [] => true
  | (i, _) :: rest => k < i && payloadRising i rest

/-- The indexes rise strictly. -/
def payloadSorted : Payload → Bool
  | [] => true
  | (i, _) :: rest => payloadRising i rest

/-- The canonical form of a payload memory of `words` words: indexes strictly rising, each below `words`. No entry can
equal what an unlisted word reads as, since an unlisted word has no stored value. -/
def payloadWf (words : Nat) (m : Payload) : Bool :=
  payloadSorted m && m.all fun e => e.1 < words

/-- The whole memory is in canonical form: every guard's payload is. -/
def Memory.wf (s : State) : Bool := s.guards.all fun g => payloadWf s.cfg.payloadWords g.payload

/-- Payload word `i` of guard `h`, as an observer of the whole memory reads it; there is none if there is no such guard. -/
def Memory.word (s : State) (h i : Nat) : Option Word := (s.guards[h]?).map fun g => memRead h g i

/-! ## The fault-stop (R256) -/

/-- `raise Fault(cause)` for a 64-bit command: the four fault registers are written and nothing else. -/
def faultStop (cmd : Command) (cause : Cause) (s : State) : State :=
  { s with faulted := true, faultCause := causeCode cause, faultCmd := cmd, faultCtx := issuer s }

/-- An instruction raises a fault: `FAULT_CMD` is its 64-bit command (log entry 18). -/
def raiseFault (i : Instr) (cause : Cause) (s : State) : Out := .next (faultStop (encode i) cause s)

/-! ## The interrupt (R253 to R255) -/

/-- Interrupt entry is enabled (R254). -/
def entryEnabled (s : State) : Bool := s.irqPend && s.ie && !s.hiActive && !s.faulted

/-- Interrupt entry (R254). -/
def enterInterrupt (s : State) : State :=
  { s with ieAtEntry := s.ie, irqPend := false, hiActive := true, hi := { s.hi with pc := 0 } }

/-- Interrupt return (R255). -/
def returnInterrupt (s : State) : State := { s with ie := s.ieAtEntry, hiActive := false }

/-- LO reaches the end of its program (R243). -/
def endLo (s : State) : State := { s with loDone := true }

/-! ## The common checks (R120, R140, R258) -/

/-- How far an instance must be set up before a command may name it. -/
inductive Setup where
  | any
  | bound
  | configured
  deriving DecidableEq, Repr

/-- `UNINIT` before `UNCONFIGURED` (R258). -/
def setupCheck (need : Setup) (init conf : Bool) : Option Cause :=
  match need with
  | .any => none
  | .bound => if init then none else some .uninit
  | .configured => if init then (if conf then none else some .unconfigured) else some .uninit

/-- A command `i` on guard `h` (R120): `BAD_HANDLE`, then the setup checks, then the command's own work. -/
def onGuard (need : Setup) (i : Instr) (h : Nat) (s : State) (body : Guard → Out) : Out :=
  match s.guards[h]? with
  | none => raiseFault i .badHandle s
  | some g =>
    match setupCheck need g.init g.conf with
    | some cause => raiseFault i cause s
    | none => body g

/-- A command `i` on instance `h` (R140): `BAD_HANDLE`, then the setup checks, then the command's own work. -/
def onInst (need : Setup) (i : Instr) (h : Nat) (s : State) (body : PwmInst → Out) : Out :=
  match s.insts[h]? with
  | none => raiseFault i .badHandle s
  | some p =>
    match setupCheck need p.init p.conf with
    | some cause => raiseFault i cause s
    | none => body p

/-- A command on a configured instance and its cluster `cl = channel(p.CH)` (R140); an instance whose channel does not
exist stops the model (log entry 11). -/
def onCluster (i : Instr) (h : Nat) (s : State) (body : PwmInst → Channel → Out) : Out :=
  onInst .configured i h s fun p =>
    match chan? s p.ch.toNat with
    | none => .fault (.noSuchChannel p.ch.toNat)
    | some cl => body p cl

/-- A command that only writes its cluster completes. -/
def finishCluster (p : PwmInst) (cl : Channel) (s : State) : Out := finish (setChan p.ch.toNat cl s)

end Sys2Proof.Machine
end

