-- ==== Sys2Proof/Machine/Harness.lean ====
section
/-! DEFINITION. The harness lines (48_harness.md). -/

namespace Sys2Proof.Machine

/-- `PC[ctx] <- PC[ctx] + off` (R241, R242): a target below 0 faults and leaves `PC` at the branch. -/
def branchBy (i : Instr) (off : Int) (s : State) : Out :=
  let target : Int := (ctxOf s (issuer s)).pc + off
  if target < 0 then raiseFault i .badParam s else .next (setPc target.toNat s)

/-- H.BRZ (R241): reads `RES` of its own context. -/
def execHBrz (off : Int) (s : State) : Out :=
  if (ctxOf s (issuer s)).res = 0 then branchBy (.hBrz off) off s else finish s

/-- H.BRA (R242). -/
def execHBra (off : Int) (s : State) : Out := branchBy (.hBra off) off s

/-- H.END (R243): LO is done, HI returns from the interrupt; `PC` is not advanced. -/
def execHEnd (s : State) : Out :=
  match issuer s with
  | .lo => .next (endLo s)
  | .hi => .next (returnInterrupt s)

end Sys2Proof.Machine
end

