-- ==== Sys2Proof/Machine/Memgrd.lean ====
section
/-! DEFINITION. The MEMGRD commands (41_memgrd.md). -/

namespace Sys2Proof.Machine

/-- MG.INIT (R121): an undersized block gives the null handle and nothing else; `IE` and the payload are not written. -/
def execMgInit (h size : Nat) (s : State) : Out :=
  onGuard .any (.mgInit h size) h s fun g =>
    if size < s.cfg.mgObjSize then finishWith nullHandle s
    else finishWith (BitVec.ofNat 32 h)
      (setGuard h { g with init := true, conf := false, dir := .highToLow, ready := false, saved := false } s)

/-- MG.CONFIG (R122). -/
def execMgConfig (h : Nat) (dir : Direction) (s : State) : Out :=
  onGuard .bound (.mgConfig h dir) h s fun g => finish (setGuard h { g with dir := dir, conf := true } s)

/-- A begin on the side that masks (R123, R125): `SAVED <- IE ; IE <- 0`, and a refusal gives `IE` back (D6). -/
def beginMasked (h : Nat) (g : Guard) (granted : Bool) (s : State) : Out :=
  finishWith (boolWord granted) (setIe (!granted && s.ie) (setGuard h { g with saved := s.ie } s))

/-- A begin on the side that cannot be preempted (R123, R125): only the answer. -/
def beginUnmasked (granted : Bool) (s : State) : Out := finishWith (boolWord granted) s

/-- A complete on the side that masks (R124, R126): the token passes and `IE <- SAVED`. -/
def completeMasked (h : Nat) (g : Guard) (ready : Bool) (s : State) : Out :=
  finish (setIe g.saved (setGuard h { g with ready := ready } s))

/-- A complete on the other side (R124, R126): the token passes. -/
def completeUnmasked (h : Nat) (g : Guard) (ready : Bool) (s : State) : Out := finish (setGuard h { g with ready := ready } s)

/-- MG.BEGINW (R123): the producer masks when it is the low-priority side. -/
def execMgBeginw (h : Nat) (s : State) : Out :=
  onGuard .configured (.mgBeginw h) h s fun g =>
    match g.dir with
    | .lowToHigh => beginMasked h g (writerMayClaim g) s
    | .highToLow => beginUnmasked (writerMayClaim g) s

/-- MG.COMPLW (R124). -/
def execMgComplw (h : Nat) (s : State) : Out :=
  onGuard .configured (.mgComplw h) h s fun g =>
    match g.dir with
    | .lowToHigh => completeMasked h g true s
    | .highToLow => completeUnmasked h g true s

/-- MG.BEGINR (R125): the consumer masks when it is the low-priority side; nothing is consumed (C2). -/
def execMgBeginr (h : Nat) (s : State) : Out :=
  onGuard .configured (.mgBeginr h) h s fun g =>
    match g.dir with
    | .highToLow => beginMasked h g (readerMayClaim g) s
    | .lowToHigh => beginUnmasked (readerMayClaim g) s

/-- MG.COMPLR (R126). -/
def execMgComplr (h : Nat) (s : State) : Out :=
  onGuard .configured (.mgComplr h) h s fun g =>
    match g.dir with
    | .highToLow => completeMasked h g false s
    | .lowToHigh => completeUnmasked h g false s

/-- MG.PLDWR (R127): the grant is not checked (R28). -/
def execMgPldwr (h index : Nat) (value : Word) (s : State) : Out :=
  onGuard .configured (.mgPldwr h index value) h s fun g =>
    if index < s.cfg.payloadWords then finish (setGuard h (memWrite g index value) s)
    else raiseFault (.mgPldwr h index value) .badIndex s

/-- MG.PLDRD (R128): the grant is not checked (R28). -/
def execMgPldrd (h index : Nat) (s : State) : Out :=
  onGuard .configured (.mgPldrd h index) h s fun g =>
    if index < s.cfg.payloadWords then finishWith (memRead h g index) s
    else raiseFault (.mgPldrd h index) .badIndex s

end Sys2Proof.Machine
end

