-- ==== Sys2Proof/Machine/PwmConfig.lean ====
section
/-! DEFINITION. PWM instance binding and configuration (42_pwm_config.md). -/

namespace Sys2Proof.Machine

/-- An instance's old channel is unbound, if it has one other than `keep` (R140, R144); it keeps running (R306). -/
def unbindOld (p : PwmInst) (keep : Nat) (s : State) : State :=
  if p.conf && p.ch.toNat != keep then unbind p.ch.toNat s else s

/-- PWM.INIT (R140). -/
def execPwmInit (h size : Nat) (s : State) : Out :=
  onInst .any (.pwmInit h size) h s fun p =>
    if size < s.cfg.pwmObjSize then finishWith nullHandle s
    else finishWith (BitVec.ofNat 32 h)
      (setInst h { init := true, conf := false, ch := 0, nomPrd := 0, seq := 0 } (unbindOld p 0 s))

/-- PWM.PDEF (R141). -/
def execPwmPdef (s : State) : Out := finish (setPstage s.cfg.defaultParams s)

/-- PWM.PSET (R142). -/
def execPwmPset (field value : Nat) (s : State) : Out :=
  match stageParam s.pstage field value with
  | some p => finish (setPstage p s)
  | none => raiseFault (.pwmPset field value) .badParam s

/-- The compare of duty 0 (R144 `c0`, by R162). -/
def dutyZero (p : Params) : Half :=
  if seqOdd p.seq then 0 else BitVec.ofNat 16 (min (fullScale p.ctrMode p.period.toNat) 65535)

/-- The cluster PWM.CONFIG leaves (R144); the pins are not written. -/
def configuredCluster (c : Config) (p : Params) (h : Nat) (cl : Channel) : Channel :=
  { cl with
    bound := some h, run := true,
    ctrMode := p.ctrMode, prd := p.period, prdSh := p.period,
    ctr := 0, ctrDir := true, phs := 0, phsDir := true,
    cmpa := dutyZero p, cmpaSh := dutyZero p, cmpLoad := p.cmpLoad,
    aqa := aqActions c.aqTable p.seq p.ctrMode, aqla := false, aqlb := false,
    csf := noForce, csfSh := noForce, csfLoad := .zero,
    dbRed := min p.dbRed.toNat (dbMax c), dbFed := min p.dbFed.toNat (dbMax c), dbPol := p.dbPol,
    dbOut := .full, dbOutSh := .full, dbLoad := .zero,
    hiRun := 0, loRun := runMax c,
    tzA := .highZ, tzB := .highZ, tzOst := true }

/-- A channel may be configured by instance `h` unless another instance is bound to it (R143). -/
def bindable (cl : Channel) (h : Nat) : Bool := cl.bound == none || cl.bound == some h

/-- PWM.CONFIG (R143 the checks, R144 the effects). -/
def execPwmConfig (h channel : Nat) (s : State) : Out :=
  onInst .bound (.pwmConfig h channel) h s fun p =>
    match chan? s channel with
    | none => raiseFault (.pwmConfig h channel) .badChannel s
    | some cl =>
      if bindable cl h then
        finish (setInst h { p with conf := true, ch := BitVec.ofNat 16 channel, nomPrd := s.pstage.period, seq := s.pstage.seq }
          (setChan channel (configuredCluster s.cfg s.pstage h cl) (unbindOld p channel s)))
      else raiseFault (.pwmConfig h channel) .channelAlias s

end Sys2Proof.Machine
end

