-- ==== Sys2Proof/Machine/PwmModulation.lean ====
section
/-! DEFINITION. Duty, compare, phase and period (43_pwm_modulation.md). The period basis is the shadow period (R160). -/

namespace Sys2Proof.Machine

/-- `FS(M, P)` of a cluster (R160, R161). -/
def clusterFullScale (cl : Channel) : Nat := fullScale cl.ctrMode cl.prdSh.toNat

/-- PWM.SETDUTY (R162). -/
def execPwmSetduty (h : Nat) (duty : Word) (s : State) : Out :=
  onCluster (.pwmSetduty h duty) h s fun p cl =>
    finishCluster p { cl with cmpaSh := BitVec.ofNat 16 (dutyCount p.seq (clusterFullScale cl) duty) } s

/-- PWM.SETCMPPH (R163). -/
def execPwmSetcmpph (h count : Nat) (s : State) : Out :=
  onCluster (.pwmSetcmpph h count) h s fun p cl =>
    finishCluster p { cl with cmpaSh := BitVec.ofNat 16 (min count (clusterFullScale cl)) } s

/-- PWM.SETPHASE (R164). -/
def execPwmSetphase (h : Nat) (phase : Word) (s : State) : Out :=
  onCluster (.pwmSetphase h phase) h s fun p cl =>
    let r := phaseRegisters cl.ctrMode cl.prdSh.toNat phase
    finishCluster p { cl with phs := BitVec.ofNat 16 r.1, phsDir := r.2 } s

/-- A period is written to the shadow, and to the active register when `PRD_LOAD` is Immediate (R165). -/
def writePeriod (c : Config) (n : Half) (cl : Channel) : Channel :=
  match c.prdLoad with
  | .immediate => { cl with prdSh := n, prd := n }
  | .zero => { cl with prdSh := n }

/-- PWM.SCALEPRD (R165): always from the nominal period; a factor not above 0 faults (C6). -/
def execPwmScaleprd (h : Nat) (factor : Word) (s : State) : Out :=
  onCluster (.pwmScaleprd h factor) h s fun p cl =>
    if qNum factor ≤ 0 then raiseFault (.pwmScaleprd h factor) .badScale s
    else finishCluster p
      (writePeriod s.cfg (BitVec.ofNat 16 (scaledPeriod cl.ctrMode p.nomPrd.toNat factor)) cl) s

/-- PWM.GETFULL (R166). -/
def execPwmGetfull (h : Nat) (s : State) : Out :=
  onCluster (.pwmGetfull h) h s fun _ cl => finishWith (BitVec.ofNat 32 (clusterFullScale cl)) s

/-- PWM.GETCTR (R167). -/
def execPwmGetctr (h : Nat) (s : State) : Out :=
  onCluster (.pwmGetctr h) h s fun _ cl => finishWith (cl.ctr.setWidth 32) s

/-- PWM.GETDIR (R168). -/
def execPwmGetdir (h : Nat) (s : State) : Out :=
  onCluster (.pwmGetdir h) h s fun _ cl => finishWith (boolWord cl.ctrDir) s

end Sys2Proof.Machine
end

