-- ==== Sys2Proof/Machine/PwmOutput.lean ====
section
/-! DEFINITION. Output enable, trip zone and the passive and operational transitions (45_pwm_output.md). -/

namespace Sys2Proof.Machine

/-- `SAFE(cl)` (R190): the complement of the dead-band active polarity. -/
def safeLevel (cl : Channel) : Bool := cl.dbPol

/-- `FSAFE(cl)` (R190), on both outputs. -/
def safeForce (cl : Channel) : ForcePair :=
  let f : Force := if safeLevel cl then .forceHigh else .forceLow
  { a := f, b := f }

/-- `TZSAFE(cl)` (R190). -/
def safeTrip (cl : Channel) : TzAct := if safeLevel cl then .forceHigh else .forceLow

/-- PWM.SETTZSAFE (R191). -/
def execPwmSettzsafe (h : Nat) (s : State) : Out :=
  onCluster (.pwmSettzsafe h) h s fun p cl => finishCluster p { cl with tzA := safeTrip cl, tzB := safeTrip cl } s

/-- PWM.ENOUT (R192). -/
def execPwmEnout (h : Nat) (s : State) : Out :=
  onCluster (.pwmEnout h) h s fun p cl => finishCluster p { cl with tzOst := false } s

/-- PWM.DISOUT (R193). -/
def execPwmDisout (h : Nat) (s : State) : Out :=
  onCluster (.pwmDisout h) h s fun p cl => finishCluster p { cl with tzOst := true } s

/-- PWM.ISEN (R194). -/
def execPwmIsen (h : Nat) (s : State) : Out :=
  onCluster (.pwmIsen h) h s fun _ cl => finishWith (boolWord (!cl.tzOst)) s

/-- An Immediate software force is written with its shadow (R195 to R197). -/
def immediateForce (cl : Channel) : Channel :=
  match cl.csfLoad with
  | .immediate => { cl with csf := cl.csfSh }
  | .zero | .period | .zeroOrPeriod => cl

/-- The shadows of a transition are written (R195, R196). -/
def requestState (force : ForcePair) (mode : DbMode) (cl : Channel) : Channel :=
  immediateForce { cl with csfSh := force, dbOutSh := mode }

/-- The load events of the next transition are chosen (R197). -/
def prepareLoads (e : PrepEntry) (cl : Channel) : Channel :=
  immediateForce { cl with dbLoad := e.dbLoad, csfLoad := e.csfLoad }

/-- A transition command (R195 to R197, R200): `UNSUPPORTED` on a chip without the feature. -/
def onTransition (i : Instr) (h : Nat) (s : State) (change : PwmInst → Channel → Channel) : Out :=
  onCluster i h s fun p cl =>
    if s.cfg.hasSyncTransition then finishCluster p (change p cl) s else raiseFault i .unsupported s

/-- PWM.SETPASSIVE (R195). -/
def execPwmSetpassive (h : Nat) (s : State) : Out :=
  onTransition (.pwmSetpassive h) h s fun _ cl => requestState (safeForce cl) .bypass cl

/-- PWM.SETOPER (R196). -/
def execPwmSetoper (h : Nat) (s : State) : Out :=
  onTransition (.pwmSetoper h) h s fun _ cl => requestState noForce .full cl

/-- PWM.PREPARE (R197, C7): x is the dead-band polarity xor the sequence parity. -/
def execPwmPrepare (h : Nat) (s : State) : Out :=
  onTransition (.pwmPrepare h) h s fun p cl => prepareLoads (prepMap s.cfg (cl.dbPol ^^ seqOdd p.seq)) cl

end Sys2Proof.Machine
end

