-- ==== Sys2Proof/Machine/PwmSequence.lean ====
section
/-! DEFINITION. Sequence and dead time (44_pwm_sequence.md). -/

namespace Sys2Proof.Machine

/-- PWM.SETSEQ (R180): the actions are written at once; the compare is not re-mapped (R303). -/
def execPwmSetseq (h seq : Nat) (s : State) : Out :=
  onCluster (.pwmSetseq h seq) h s fun p cl =>
    if seq > 3 then raiseFault (.pwmSetseq h seq) .badSequence s
    else
      let q := BitVec.ofNat 2 seq
      finishCluster p { cl with aqa := aqActions s.cfg.aqTable q cl.ctrMode } (setInst h { p with seq := q } s)

/-- PWM.GETSEQ (R181). -/
def execPwmGetseq (h : Nat) (s : State) : Out :=
  onCluster (.pwmGetseq h) h s fun p _ => finishWith (p.seq.setWidth 32) s

/-- PWM.SETDT (R184): written at once, saturated at `DB_MAX`. -/
def execPwmSetdt (h red fed : Nat) (s : State) : Out :=
  onCluster (.pwmSetdt h red fed) h s fun p cl =>
    finishCluster p { cl with dbRed := min red (dbMax s.cfg), dbFed := min fed (dbMax s.cfg) } s

end Sys2Proof.Machine
end

