-- ==== Sys2Proof/Machine/Dispatch.lean ====
section
/-! DEFINITION. The meaning of each instruction, issued by the context `issuer s` (log entry 10). -/

namespace Sys2Proof.Machine

def exec (i : Instr) (s : State) : Host.Outcome State Fault Refusal :=
  match i with
  | .mgInit h size => Sys2Proof.Machine.execMgInit h size s
  | .mgConfig h dir => Sys2Proof.Machine.execMgConfig h dir s
  | .mgBeginw h => Sys2Proof.Machine.execMgBeginw h s
  | .mgComplw h => Sys2Proof.Machine.execMgComplw h s
  | .mgBeginr h => Sys2Proof.Machine.execMgBeginr h s
  | .mgComplr h => Sys2Proof.Machine.execMgComplr h s
  | .mgPldwr h index value => Sys2Proof.Machine.execMgPldwr h index value s
  | .mgPldrd h index => Sys2Proof.Machine.execMgPldrd h index s
  | .pwmInit h size => Sys2Proof.Machine.execPwmInit h size s
  | .pwmPdef => Sys2Proof.Machine.execPwmPdef s
  | .pwmPset field value => Sys2Proof.Machine.execPwmPset field value s
  | .pwmConfig h channel => Sys2Proof.Machine.execPwmConfig h channel s
  | .pwmSetduty h duty => Sys2Proof.Machine.execPwmSetduty h duty s
  | .pwmSetcmpph h count => Sys2Proof.Machine.execPwmSetcmpph h count s
  | .pwmSetphase h phase => Sys2Proof.Machine.execPwmSetphase h phase s
  | .pwmScaleprd h factor => Sys2Proof.Machine.execPwmScaleprd h factor s
  | .pwmGetfull h => Sys2Proof.Machine.execPwmGetfull h s
  | .pwmGetctr h => Sys2Proof.Machine.execPwmGetctr h s
  | .pwmGetdir h => Sys2Proof.Machine.execPwmGetdir h s
  | .pwmSetseq h seq => Sys2Proof.Machine.execPwmSetseq h seq s
  | .pwmGetseq h => Sys2Proof.Machine.execPwmGetseq h s
  | .pwmSetdt h red fed => Sys2Proof.Machine.execPwmSetdt h red fed s
  | .pwmSettzsafe h => Sys2Proof.Machine.execPwmSettzsafe h s
  | .pwmEnout h => Sys2Proof.Machine.execPwmEnout h s
  | .pwmDisout h => Sys2Proof.Machine.execPwmDisout h s
  | .pwmIsen h => Sys2Proof.Machine.execPwmIsen h s
  | .pwmSetpassive h => Sys2Proof.Machine.execPwmSetpassive h s
  | .pwmSetoper h => Sys2Proof.Machine.execPwmSetoper h s
  | .pwmPrepare h => Sys2Proof.Machine.execPwmPrepare h s
  | .hBrz off => Sys2Proof.Machine.execHBrz off s
  | .hBra off => Sys2Proof.Machine.execHBra off s
  | .hEnd => Sys2Proof.Machine.execHEnd s

end Sys2Proof.Machine
end

