-- ==== Sys2Proof/Machine/Timebase.lean ====
section
/-! DEFINITION. The steps of TIMER and ENV on a channel's cluster (46_pwm_timebase.md): tick (R223), SYNC (R221), TRIP (R222).
UNVERIFIED: the spec supplies these mechanics from general knowledge (log entry 15). -/

namespace Sys2Proof.Machine

/-- The new counter `CTR'` (R211); a running channel has `PRD ≥ 1` (log entry 20). -/
def nextCount (m : CtrMode) (prd ctr : Nat) (dir : Bool) : Nat :=
  match m with
  | .up => if ctr ≥ prd then 0 else ctr + 1
  | .upDown =>
    if dir then (if ctr < prd then ctr + 1 else ctr - 1)
    else (if ctr > 0 then ctr - 1 else ctr + 1)

/-- The new direction `DIR'` (R211): 1 is up. -/
def nextDir (m : CtrMode) (prd ctr ctr' : Nat) : Bool :=
  match m with
  | .up => true
  | .upDown => if ctr' ≥ prd then false else if ctr' = 0 then true else ctr < ctr'

/-- `fire(LE)` (R214). -/
def fires (le : LoadEvent) (zro prde : Bool) : Bool :=
  match le with
  | .zero => zro
  | .period => prde
  | .zeroOrPeriod => zro || prde
  | .immediate => false

/-- The shadow loads of a tick (R214). -/
def shadowLoads (c : Config) (zro prde : Bool) (ch : Channel) : Channel :=
  { ch with
    prd := if c.prdLoad = .zero ∧ zro then ch.prdSh else ch.prd,
    cmpa := if fires ch.cmpLoad zro prde then ch.cmpaSh else ch.cmpa,
    dbOut := if fires ch.dbLoad zro prde then ch.dbOutSh else ch.dbOut,
    csf := if fires ch.csfLoad zro prde then ch.csfSh else ch.csf }

/-- The action of the first event that happens and has one; events stand in order of priority (R215). -/
def firstAction : List (Bool × Act) → Act
  | [] => .noAct
  | (happens, act) :: rest => if happens && act != .noAct then act else firstAction rest

/-- The action of a tick (R213, R215): a compare event is CAU while counting up and CAD while counting down. -/
def tickAction (m : CtrMode) (dir : Bool) (aqa : AqActions) (zro prde ca : Bool) : Act :=
  match m, dir with
  | .upDown, true => firstAction [(ca, aqa.cau), (zro, aqa.zro)]
  | .upDown, false => firstAction [(ca, aqa.cad), (prde, aqa.prd)]
  | .up, _ => firstAction [(prde, aqa.prd), (ca, aqa.cau), (zro, aqa.zro)]

/-- The AQ latch after an action (R216). -/
def latchAfter (act : Act) (latch : Bool) : Bool :=
  match act with
  | .noAct => latch
  | .clear => false
  | .set => true
  | .toggle => !latch

/-- An AQ output: a software force overrides the latch (R216). -/
def forced (f : Force) (latch : Bool) : Bool :=
  match f with
  | .off => latch
  | .forceLow => false
  | .forceHigh => true

/-- `HIRUN` and `LORUN` for the dead-band input `input` (R217). -/
def runCounts (c : Config) (input : Bool) (ch : Channel) : Channel :=
  if input then { ch with hiRun := min (ch.hiRun + 1) (runMax c), loRun := 0 }
  else { ch with loRun := min (ch.loRun + 1) (runMax c), hiRun := 0 }

/-- The delayed rising edge (R218). -/
def redOut (ch : Channel) (input : Bool) : Bool := input && decide (ch.hiRun ≥ ch.dbRed + 1)

/-- The delayed falling edge (R218). -/
def fedOut (ch : Channel) (input : Bool) : Bool := input || decide (ch.loRun ≤ ch.dbFed)

/-- The dead-band outputs `dbA`, `dbB` (R218). -/
def deadBand (ch : Channel) (aqA aqB : Bool) : Bool × Bool :=
  match ch.dbOut with
  | .bypass => (aqA, aqB)
  | .full => if ch.dbPol then (!redOut ch aqA, fedOut ch aqA) else (redOut ch aqA, !fedOut ch aqA)

/-- A level on a pin. -/
def pinOf (b : Bool) : Pin := if b then .high else .low

/-- `tz(act, v)` (R219). -/
def tripPin (act : TzAct) (v : Bool) : Pin :=
  match act with
  | .highZ => .z
  | .forceHigh => .high
  | .forceLow => .low
  | .noAction => pinOf v

/-- The pins of a tick (R219). -/
def drivePins (ch : Channel) (db : Bool × Bool) : Channel :=
  if ch.tzOst then { ch with pinA := tripPin ch.tzA db.1, pinB := tripPin ch.tzB db.2 }
  else { ch with pinA := pinOf db.1, pinB := pinOf db.2 }

/-- One tick of a cluster (R223): counter, events, loads, action qualifier and force, run counters, dead band, pins. -/
def tickChannel (c : Config) (ch : Channel) : Channel :=
  let ctr' := nextCount ch.ctrMode ch.prd.toNat ch.ctr.toNat ch.ctrDir
  let dir' := nextDir ch.ctrMode ch.prd.toNat ch.ctr.toNat ctr'
  let zro := ctr' == 0
  let prde := ctr' == ch.prd.toNat
  let ch := shadowLoads c zro prde { ch with ctr := BitVec.ofNat 16 ctr', ctrDir := dir' }
  let ca := ctr' == ch.cmpa.toNat
  let ch := { ch with aqla := latchAfter (tickAction ch.ctrMode dir' ch.aqa zro prde ca) ch.aqla }
  let aqA := forced ch.csf.a ch.aqla
  let aqB := forced ch.csf.b ch.aqlb
  let ch := runCounts c aqA ch
  drivePins ch (deadBand ch aqA aqB)

/-- A sync of a cluster (R221). -/
def syncChannel (ch : Channel) : Channel :=
  { ch with ctr := ch.phs, ctrDir := match ch.ctrMode with | .upDown => ch.phsDir | .up => true }

/-- A trip of a cluster (R222). -/
def tripChannel (ch : Channel) : Channel := { ch with tzOst := true }

/-- The step `tick(c)` (R210): it is enabled only on a running channel, and otherwise nothing happens (log entry 2). -/
def tickStep (c : Nat) (s : State) : State :=
  modifyChan c (fun ch => if ch.run then tickChannel s.cfg ch else ch) s

/-- The step `SYNC(c)` (R221): enabled when `SYNC_IN` and the channel runs. -/
def syncStep (c : Nat) (s : State) : State :=
  modifyChan c (fun ch => if s.cfg.syncIn && ch.run then syncChannel ch else ch) s

/-- The step `TRIP(c)` (R222): enabled when `TRIP_IN`, on any channel. -/
def tripStep (c : Nat) (s : State) : State :=
  modifyChan c (fun ch => if s.cfg.tripIn then tripChannel ch else ch) s

/-- The step `RAISE` (R253): enabled at every step. -/
def raiseStep (s : State) : State := { s with irqPend := true }

end Sys2Proof.Machine
end

