-- ==== Sys2Proof/Machine/Schedule.lean ====
section
/-! DEFINITION. Which step is taken and what it does (60_exceptions.md section 1, 48_harness.md R240), for any meaning `run`
of instructions; `Step.lean` gives it `exec`. -/

namespace Sys2Proof.Machine

/-- The cause a refused command is stopped with (R99). A fetched command has all its 64 bits, so `truncated` cannot occur;
it would be an opcode that is not there. -/
def decodeCause : DecodeError → Cause
  | .illegalOpcode => .illegalOpcode
  | .reservedField => .reservedField
  | .truncated => .illegalOpcode

/-- Act on a decoder's verdict for the command `c`: run it, or stop with the cause and the 64-bit command (R99, R256). -/
def onVerdict (run : Instr → State → Out) (c : Command) (v : Decoded) (s : State) : Out :=
  match v with
  | .instr i => run i s
  | .bad e => .next (faultStop c (decodeCause e) s)

/-- A command reaches the block's command port (R97, R99): a harness opcode there is illegal. -/
def portStep (run : Instr → State → Out) (c : Command) (s : State) : Out := onVerdict run c (decodeBlock c) s

/-- The harness executes its own three lines and hands every other command to the block (R240). -/
def fetchedStep (run : Instr → State → Out) (c : Command) (s : State) : Out :=
  if isHarnessOp c then onVerdict run c (decodeHarness c) s else portStep run c s

/-- A step of the context `ctx` (R240): the command at `PC[ctx]`, or H.END past the end of its program (R244). -/
def contextStep (run : Instr → State → Out) (ctx : Ctx) (s : State) : Out :=
  match (ctxOf s ctx).prog[(ctxOf s ctx).pc]? with
  | some c => fetchedStep run c s
  | none => run .hEnd s

/-- The processor's step (R251): interrupt entry if it is enabled, else the running context's, else none; a processor with
no step loops (R259, U16; log entry 3). -/
def processorStep (run : Instr → State → Out) (s : State) : Out :=
  if entryEnabled s then .next (enterInterrupt s)
  else match running s with
    | some ctx => contextStep run ctx s
    | none => .next s

/-- The step of one agent (R250). -/
def eventStep (run : Instr → State → Out) (e : Event) (s : State) : Out :=
  match e with
  | .cpu => processorStep run s
  | .raise => .next (raiseStep s)
  | .trip c => .next (tripStep c s)
  | .sync c => .next (syncStep c s)
  | .tick c => .next (tickStep c s)

/-- The first move of a schedule (log entry 1). -/
def schedHead (c : Schedule) : Event :=
  match c.listed with
  | e :: _ => e
  | [] =>
    match c.onward with
    | .cycle [] => .cpu
    | .cycle (e :: _) => e
    | .free stream n => Config.freeEvent stream n

/-- A schedule after its first move. -/
def schedRest (c : Schedule) : Schedule :=
  match c.listed with
  | _ :: rest => { c with listed := rest }
  | [] =>
    match c.onward with
    | .cycle [] => c
    | .cycle (_ :: rest) => { c with listed := rest }
    | .free stream n => { c with onward := .free stream (n + 1) }

/-- Whose step is next (R250). -/
def nextEvent (s : State) : Event := schedHead s.sched

/-- The schedule after this step. -/
def popSched (s : State) : State := { s with sched := schedRest s.sched }

/-- One step of the machine (R250). -/
def scheduledStep (run : Instr → State → Out) (s : State) : Out := eventStep run (nextEvent s) (popSched s)

/-- A program with a command placed at index `n`, the places before it filled with the all-zero command if it is shorter. -/
def placeCommand : List Command → Nat → Command → List Command
  | [], 0, c => [c]
  | _ :: rest, 0, c => c :: rest
  | [], n + 1, c => 0 :: placeCommand [] n c
  | x :: rest, n + 1, c => x :: placeCommand rest n c

/-- The state with a command placed where the next step fetches (log entry 8): in the program of the context that issues
next, at its `PC`, the processor's move put before the schedule's, and nothing that would keep that context from running it
(a fault-stop, LO done, an interrupt about to be taken). -/
def placeNext (c : Command) (s : State) : State :=
  let ctx := issuer s
  let x := ctxOf s ctx
  { setCtx ctx { x with prog := placeCommand x.prog x.pc c } s with
    sched := { s.sched with listed := .cpu :: s.sched.listed }, faulted := false, loDone := s.loDone && s.hiActive, irqPend := s.irqPend && (s.hiActive || !s.ie) }

end Sys2Proof.Machine
end

