-- ==== Sys2Proof/Machine/Step.lean ====
section
/-! DEFINITION. One step of the machine (R250). -/

namespace Sys2Proof.Machine

def step (s : State) : Host.Outcome State Fault Refusal := scheduledStep exec s

/-- `s` with the table word `w` placed where `step` fetches its next instruction (log entries 8 and 9). -/
def State.withFetchWord (s : State) (nbits w : Nat) : State := placeNext (BitVec.ofNat 64 (w % 2 ^ nbits)) s

end Sys2Proof.Machine
end

