-- ==== Sys2Proof/Safety.lean ====
section
/-! DEFINITION. What claims are stated in: the legal parameters, the invariant of reachable states, the end of a run (R270),
fairness (R272), the launch premise (R284), and overlapping pins (R220). -/

namespace Sys2Proof

open Machine

/-! ## Legal parameters -/

/-- A parameter record with a legal value in every field (R26, R141). -/
def paramsLegal (p : Params) : Bool := p.period != 0 && p.cmpLoad != .immediate

/-- The dead-band load event of a `PREP_MAP` entry is Zero or ZeroOrPeriod (R198). -/
def prepLegal (e : PrepEntry) : Bool := e.dbLoad == .zero || e.dbLoad == .zeroOrPeriod

/-- An action that leaves a known level: R182 (c)'s set or clear. -/
def actForces (a : Act) : Bool := a == .set || a == .clear

/-- R182 (a) and (c): an even sequence sets at the compare on count-up and clears on count-down, an odd one the reverse. A
sawtooth counter never counts down, so there the count-down action may be None (log entry 17). -/
def compareLegal (odd : Bool) (r : AqRow) : Bool :=
  let up : Act := if odd then .clear else .set
  let down : Act := if odd then .set else .clear
  r.upDown.cau == up && r.upDown.cad == down
    && r.sawtooth.cau == up && (r.sawtooth.cad == down || r.sawtooth.cad == .noAct)

/-- R182 (b) for sequences 0 and 1: forced at zero and at period; a sawtooth row may leave the period unforced, as the
runner default does (log entry 17). -/
def boundaryForced (r : AqRow) : Bool :=
  actForces r.upDown.zro && actForces r.upDown.prd
    && actForces r.sawtooth.zro && (actForces r.sawtooth.prd || r.sawtooth.prd == .noAct)

/-- R182 (b) for sequences 2 and 3: unforced at zero and at period. -/
def boundaryUnforced (r : AqRow) : Bool :=
  r.upDown.zro == .noAct && r.upDown.prd == .noAct && r.sawtooth.zro == .noAct && r.sawtooth.prd == .noAct

/-- What R182 asks of any table. -/
def aqTableLegal (t : AqTable) : Bool :=
  compareLegal false t.seq0 && compareLegal true t.seq1 && compareLegal false t.seq2 && compareLegal true t.seq3
    && boundaryForced t.seq0 && boundaryForced t.seq1 && boundaryUnforced t.seq2 && boundaryUnforced t.seq3

/-- The parameters are ones R7 admits. -/
def configLegal (c : Config) : Bool :=
  c.payloadWords ≤ 65536 && prepLegal c.prepMap0 && prepLegal c.prepMap1 && aqTableLegal c.aqTable
    && paramsLegal c.defaultParams

/-! ## The invariant of reachable states -/

/-- A guard is configured only once bound (R120), and its payload memory is in canonical form. -/
def guardWf (c : Config) (g : Guard) : Bool := (!g.conf || g.init) && payloadWf c.payloadWords g.payload

/-- A cluster's registers hold legal values (R33, R35, R36) and a running one has a period (R211). -/
def channelWf (c : Config) (ch : Channel) : Bool :=
  (!ch.run || (ch.prd != 0 && ch.prdSh != 0))
    && (ch.bound == none || ch.run)
    && ch.cmpLoad != .immediate
    && (ch.dbLoad == .zero || ch.dbLoad == .zeroOrPeriod)
    && ch.dbRed ≤ dbMax c && ch.dbFed ≤ dbMax c
    && ch.hiRun ≤ runMax c && ch.loRun ≤ runMax c
    && !ch.aqlb
    && (ch.ctrMode == .upDown || ch.ctrDir)

/-- `p.CONF = 1 ⇒ p.INIT = 1 ∧ p.CH ≠ 0 ∧ p.CH.BOUND = p` (R37), for the instance `h`. -/
def instBindingOk (s : State) (h : Nat) : Bool :=
  match s.insts[h]? with
  | none => true
  | some p => !p.conf || (p.init && match chan? s p.ch.toNat with
    | some cl => cl.bound == some h
    | none => false)

/-- `ch.BOUND = p ≠ NONE ⇒ p.CH = ch` (R37), for the channel `c`; a bound instance is configured. -/
def chanBindingOk (s : State) (c : Nat) : Bool :=
  match chan? s c with
  | none => true
  | some cl => match cl.bound with
    | none => true
    | some h => match s.insts[h]? with
      | some p => p.conf && p.ch.toNat == c
      | none => false

/-- `FAULT_CAUSE` is 0 while no fault is taken and one of the codes 0x01 to 0x0C after (R257). -/
def faultRecordOk (s : State) : Bool :=
  if s.faulted then 1 ≤ s.faultCause.toNat && s.faultCause.toNat ≤ 12 else s.faultCause == 0

/-- The invariant every step keeps. -/
structure Inv (s : State) : Prop where
  config : configLegal s.cfg = true
  guardCount : s.guards.length ≤ 64
  instCount : s.insts.length ≤ 64
  chanCount : s.chans.length ≤ 65535
  staged : paramsLegal s.pstage = true
  guards : ∀ g ∈ s.guards, guardWf s.cfg g = true
  chans : ∀ ch ∈ s.chans, channelWf s.cfg ch = true
  instBinding : ∀ h < s.insts.length, instBindingOk s h = true
  chanBinding : ∀ c < s.chans.length + 1, chanBindingOk s c = true
  entryMask : s.hiActive = true → s.ieAtEntry = true
  faultRecord : faultRecordOk s = true

/-! ## Runs -/

/-- The end of a run (R270). -/
def runEnded (s : State) : Bool := !s.faulted && s.loDone && !s.hiActive && !s.irqPend

/-- A fault outcome (R270). -/
def faultOutcome (s : State) : Bool := s.faulted

/-- `t` is the final state of the run from `s`, reached after `n` steps: the FIRST state that ends it (R270). -/
def EndsAt (n : Nat) (s t : State) : Prop :=
  Host.Core.run core n s = .next t ∧ runEnded t = true ∧
    ∀ k < n, ∀ u, Host.Core.run core k s = .next u → runEnded u = false

/-- The run from `s` comes to a fault outcome after `n` steps, without having ended before (R270). -/
def FaultsAt (n : Nat) (s t : State) : Prop :=
  Host.Core.run core n s = .next t ∧ faultOutcome t = true ∧
    ∀ k < n, ∀ u, Host.Core.run core k s = .next u → faultOutcome u = false ∧ runEnded u = false

/-- A hang (R270): the run from `s` is unending, LO never reaches the end of its program and no fault occurs. -/
def Hangs (s : State) : Prop := ∀ n, ∃ t, Host.Core.run core n s = .next t ∧ t.loDone = false ∧ t.faulted = false

/-- The processor has a step: interrupt entry, or a step of the running context (R251). -/
def processorEnabled (s : State) : Bool := entryEnabled s || (running s).isSome

/-- Weak fairness (R272, log entry 22): a processor step that stays enabled is eventually taken. It is a premise for claims
that a program ends, and nothing in the step imposes it, nor any fairness on TIMER and ENV. -/
def WeaklyFair (s : State) : Prop :=
  ∀ n, (∀ m t, n ≤ m → Host.Core.run core m s = .next t → processorEnabled t = true) →
    ∃ m t, n ≤ m ∧ Host.Core.run core m s = .next t ∧ nextEvent t = .cpu

/-- The next step is one of LO's commands or harness lines (R250, R251). -/
def loMoves (s : State) : Bool := nextEvent s == .cpu && !entryEnabled s && running s == some .lo

/-- How many commands or harness lines LO completes in the first `n` steps. -/
def loCompleted : Nat → State → Nat
  | 0, _ => 0
  | n + 1, s =>
    match step s with
    | .next t => (if loMoves s && !t.faulted then 1 else 0) + loCompleted n t
    | .fault _ => 0
    | .refused _ => 0

/-- The launch premise `NoIrqBefore(k)` (R284): the host raises no request before LO has completed `k` commands (log entry 19). -/
def NoIrqBefore (k : Nat) (s : State) : Prop :=
  ∀ n t, Host.Core.run core n s = .next t → loCompleted n s < k → nextEvent t ≠ .raise

/-! ## Outputs -/

/-- Both switches of a leg are driven on: the active level is 1 for active-high and 0 for active-low outputs (R190, R220). -/
def overlap (ch : Channel) : Bool :=
  let active : Pin := if ch.dbPol then .low else .high
  ch.pinA == active && ch.pinB == active

end Sys2Proof
end

