-- ==== Sys2Proof/Certificates/Slice0/Obligations.lean ====
section
/-! DEFINITION. The statements for the provers. The definitions under `Sys2Proof.Spec` write what the rules say in plain
record updates, apart from the model's own operations. Each statement's docstring names the rules or sections it rests on;
where it rests on something the spec marks as its own inference or general knowledge, or on a choice of the model, it says
so. -/

namespace Sys2Proof.Spec

open Machine

/-! ## Next states in the spec's words -/

/-- The fault-stop of R256, with the code of R257. -/
def stopped (s : State) (cmd : Command) (code : BitVec 8) : State :=
  { s with faulted := true, faultCause := code, faultCmd := cmd, faultCtx := if s.hiActive then .hi else .lo }

/-- A command without a result completes: `PC[ctx]` goes on by one (R240). -/
def returned (s : State) : State :=
  if s.hiActive then { s with hi := { s.hi with pc := s.hi.pc + 1 } } else { s with lo := { s.lo with pc := s.lo.pc + 1 } }

/-- A command with the result `v` completes (R21, R240). -/
def answered (v : Word) (s : State) : State :=
  if s.hiActive then { s with hi := { s.hi with pc := s.hi.pc + 1, res := v } }
  else { s with lo := { s.lo with pc := s.lo.pc + 1, res := v } }

/-- `PC[ctx] <- n`. -/
def jumped (n : Nat) (s : State) : State :=
  if s.hiActive then { s with hi := { s.hi with pc := n } } else { s with lo := { s.lo with pc := n } }

/-- `PC[ctx]` of the issuing context. -/
def pcOf (s : State) : Nat := if s.hiActive then s.hi.pc else s.lo.pc

/-- `RES[ctx]` of the issuing context. -/
def resOf (s : State) : Word := if s.hiActive then s.hi.res else s.lo.res

/-- The schedule's first move is used up (log entry 1). -/
def moved (s : State) : State := { s with sched := schedRest s.sched }

/-- The next step is the context's command `c` (R240, R251). -/
structure Fetches (s : State) (ctx : Ctx) (c : Command) : Prop where
  processor : nextEvent s = .cpu
  noEntry : ¬ (s.irqPend = true ∧ s.ie = true ∧ s.hiActive = false ∧ s.faulted = false)
  runs : running s = some ctx
  fetched : (ctxOf s ctx).prog[(ctxOf s ctx).pc]? = some c

/-- Guard `h` is `g`, bound and configured. -/
structure GuardReady (s : State) (h : Nat) (g : Guard) : Prop where
  found : s.guards[h]? = some g
  init : g.init = true
  conf : g.conf = true

/-- Instance `h` is `p`, bound and configured, and `cl` is its cluster `channel(p.CH)`. -/
structure Leg (s : State) (h : Nat) (p : PwmInst) (cl : Channel) : Prop where
  found : s.insts[h]? = some p
  init : p.init = true
  conf : p.conf = true
  channel : p.ch ≠ 0#16
  cluster : s.chans[p.ch.toNat - 1]? = some cl

/-- The state with the instance's cluster written. -/
def withCluster (s : State) (p : PwmInst) (cl : Channel) : State := { s with chans := s.chans.set (p.ch.toNat - 1) cl }

/-- The channels with channel `c` unbound. -/
def unboundAt (c : Nat) (l : List Channel) : List Channel :=
  l.mapIdx fun k ch => if k + 1 = c then { ch with bound := none } else ch

/-- `FS(M, P)` of R161 with the shadow period of R160. -/
def fullScaleOf (cl : Channel) : Nat :=
  match cl.ctrMode with
  | .upDown => cl.prdSh.toNat
  | .up => cl.prdSh.toNat + 1

/-- `q(w)` (R12), a rational. -/
def q (w : Word) : ℚ := (w.toInt : ℚ) / 65536

/-- `clamp(f, 0, 1)`. -/
def clampUnit (f : ℚ) : ℚ := min (max f 0) 1

/-! ## Families -/

/-- The handle of a MEMGRD command, and how far the guard must be set up (R120). -/
def mgTarget : Instr → Option (Nat × Setup)
  | .mgInit h _ => some (h, .any)
  | .mgConfig h _ => some (h, .bound)
  | .mgBeginw h | .mgComplw h | .mgBeginr h | .mgComplr h | .mgPldwr h _ _ | .mgPldrd h _ => some (h, .configured)
  | _ => none

/-- The handle of a PWM command, and how far the instance must be set up (R140). -/
def pwmTarget : Instr → Option (Nat × Setup)
  | .pwmInit h _ => some (h, .any)
  | .pwmConfig h _ => some (h, .bound)
  | .pwmSetduty h _ | .pwmSetcmpph h _ | .pwmSetphase h _ | .pwmScaleprd h _ | .pwmGetfull h | .pwmGetctr h | .pwmGetdir h
  | .pwmSetseq h _ | .pwmGetseq h | .pwmSetdt h _ _ | .pwmSettzsafe h | .pwmEnout h | .pwmDisout h | .pwmIsen h
  | .pwmSetpassive h | .pwmSetoper h | .pwmPrepare h => some (h, .configured)
  | _ => none

/-- The commands that return a value (R21). -/
def returnsValue : Instr → Bool
  | .mgInit _ _ | .mgBeginw _ | .mgBeginr _ | .mgPldrd _ _ | .pwmInit _ _ | .pwmGetfull _ | .pwmGetctr _ | .pwmGetdir _
  | .pwmGetseq _ | .pwmIsen _ => true
  | _ => false

/-- The instructions that may write `IE`: the MEMGRD begins and completes, and HI's return (R23). -/
def mayWriteIe : Instr → Bool
  | .mgBeginw _ | .mgComplw _ | .mgBeginr _ | .mgComplr _ | .hEnd => true
  | _ => false

/-- A row's mnemonic in spec/opcode_table.json. -/
def mnemonic : Instr → String
  | .mgInit _ _ => "MG.INIT"
  | .mgConfig _ _ => "MG.CONFIG"
  | .mgBeginw _ => "MG.BEGINW"
  | .mgComplw _ => "MG.COMPLW"
  | .mgBeginr _ => "MG.BEGINR"
  | .mgComplr _ => "MG.COMPLR"
  | .mgPldwr _ _ _ => "MG.PLDWR"
  | .mgPldrd _ _ => "MG.PLDRD"
  | .pwmInit _ _ => "PWM.INIT"
  | .pwmPdef => "PWM.PDEF"
  | .pwmPset _ _ => "PWM.PSET"
  | .pwmConfig _ _ => "PWM.CONFIG"
  | .pwmSetduty _ _ => "PWM.SETDUTY"
  | .pwmSetcmpph _ _ => "PWM.SETCMPPH"
  | .pwmSetphase _ _ => "PWM.SETPHASE"
  | .pwmScaleprd _ _ => "PWM.SCALEPRD"
  | .pwmGetfull _ => "PWM.GETFULL"
  | .pwmGetctr _ => "PWM.GETCTR"
  | .pwmGetdir _ => "PWM.GETDIR"
  | .pwmSetseq _ _ => "PWM.SETSEQ"
  | .pwmGetseq _ => "PWM.GETSEQ"
  | .pwmSetdt _ _ _ => "PWM.SETDT"
  | .pwmSettzsafe _ => "PWM.SETTZSAFE"
  | .pwmEnout _ => "PWM.ENOUT"
  | .pwmDisout _ => "PWM.DISOUT"
  | .pwmIsen _ => "PWM.ISEN"
  | .pwmSetpassive _ => "PWM.SETPASSIVE"
  | .pwmSetoper _ => "PWM.SETOPER"
  | .pwmPrepare _ => "PWM.PREPARE"
  | .hBrz _ => "H.BRZ"
  | .hBra _ => "H.BRA"
  | .hEnd => "H.END"

/-- A row of spec/opcode_table.json. -/
structure Row where
  name : String
  bits : Command
  mask : Command

/-- The MEMGRD rows of spec/opcode_table.json. -/
def mgRows : List Row :=
  [⟨"MG.INIT", 0x0400000000000000, 0xFC0FFFFF00000000⟩,
   ⟨"MG.CONFIG", 0x0800000000000000, 0xFC0FFFFEFFFFFFFF⟩,
   ⟨"MG.BEGINW", 0x0C00000000000000, 0xFC0FFFFFFFFFFFFF⟩,
   ⟨"MG.COMPLW", 0x1000000000000000, 0xFC0FFFFFFFFFFFFF⟩,
   ⟨"MG.BEGINR", 0x1400000000000000, 0xFC0FFFFFFFFFFFFF⟩,
   ⟨"MG.COMPLR", 0x1800000000000000, 0xFC0FFFFFFFFFFFFF⟩,
   ⟨"MG.PLDWR", 0x1C00000000000000, 0xFC0F000000000000⟩,
   ⟨"MG.PLDRD", 0x2000000000000000, 0xFC0F0000FFFFFFFF⟩]

/-- The PWM rows up to PWM.GETDIR. -/
def pwmRows : List Row :=
  [⟨"PWM.INIT", 0x4000000000000000, 0xFC0FFFFF00000000⟩,
   ⟨"PWM.PDEF", 0x4400000000000000, 0xFFFFFFFFFFFFFFFF⟩,
   ⟨"PWM.PSET", 0x4800000000000000, 0xFFFF000000000000⟩,
   ⟨"PWM.CONFIG", 0x4C00000000000000, 0xFC0F0000FFFFFFFF⟩,
   ⟨"PWM.SETDUTY", 0x5000000000000000, 0xFC0FFFFF00000000⟩,
   ⟨"PWM.SETCMPPH", 0x5400000000000000, 0xFC0F0000FFFFFFFF⟩,
   ⟨"PWM.SETPHASE", 0x5800000000000000, 0xFC0FFFFF00000000⟩,
   ⟨"PWM.SCALEPRD", 0x5C00000000000000, 0xFC0FFFFF00000000⟩,
   ⟨"PWM.GETFULL", 0x6000000000000000, 0xFC0FFFFFFFFFFFFF⟩,
   ⟨"PWM.GETCTR", 0x6400000000000000, 0xFC0FFFFFFFFFFFFF⟩,
   ⟨"PWM.GETDIR", 0x6800000000000000, 0xFC0FFFFFFFFFFFFF⟩]

/-- The PWM rows from PWM.SETSEQ, and the harness rows. -/
def lastRows : List Row :=
  [⟨"PWM.SETSEQ", 0x6C00000000000000, 0xFC0F0000FFFFFFFF⟩,
   ⟨"PWM.GETSEQ", 0x7000000000000000, 0xFC0FFFFFFFFFFFFF⟩,
   ⟨"PWM.SETDT", 0x7400000000000000, 0xFC0FFFFF00000000⟩,
   ⟨"PWM.SETTZSAFE", 0x7800000000000000, 0xFC0FFFFFFFFFFFFF⟩,
   ⟨"PWM.ENOUT", 0x7C00000000000000, 0xFC0FFFFFFFFFFFFF⟩,
   ⟨"PWM.DISOUT", 0x8000000000000000, 0xFC0FFFFFFFFFFFFF⟩,
   ⟨"PWM.ISEN", 0x8400000000000000, 0xFC0FFFFFFFFFFFFF⟩,
   ⟨"PWM.SETPASSIVE", 0x8800000000000000, 0xFC0FFFFFFFFFFFFF⟩,
   ⟨"PWM.SETOPER", 0x8C00000000000000, 0xFC0FFFFFFFFFFFFF⟩,
   ⟨"PWM.PREPARE", 0x9000000000000000, 0xFC0FFFFFFFFFFFFF⟩,
   ⟨"H.BRZ", 0xF000000000000000, 0xFFFF0000FFFFFFFF⟩,
   ⟨"H.BRA", 0xF400000000000000, 0xFFFF0000FFFFFFFF⟩,
   ⟨"H.END", 0xF800000000000000, 0xFFFFFFFFFFFFFFFF⟩]

/-- spec/opcode_table.json. -/
def opcodeTable : List Row := mgRows ++ pwmRows ++ lastRows

/-- The opcode bits of a command. -/
def opBits : Command := 0xFC00000000000000

/-- `SAFE(cl)` as a pin level, and the force and trip action that drive it (R190). -/
def safePin (cl : Channel) : Pin := if cl.dbPol then .high else .low

def safeForceOf (cl : Channel) : Force := if cl.dbPol then .forceHigh else .forceLow

def safeTripOf (cl : Channel) : TzAct := if cl.dbPol then .forceHigh else .forceLow

/-- A completed passive transition: both shadows have loaded (45_pwm_output.md, "Outcome of a passive transition"). -/
def passive (cl : Channel) : Prop :=
  cl.csf = ⟨safeForceOf cl, safeForceOf cl⟩ ∧ cl.csfSh = ⟨safeForceOf cl, safeForceOf cl⟩
    ∧ cl.dbOut = .bypass ∧ cl.dbOutSh = .bypass

end Sys2Proof.Spec

open Sys2Proof Sys2Proof.Machine Sys2Proof.Spec

/-! ## Encoding -/

/-- Every well-formed instruction is read back from its encoding, with every operand at every value its field admits
(30_encoding.md, R91 to R95). -/
def Obligations.DecodeOfEncode : Prop :=
  ∀ i : Instr, i.wf = true → decode (encode i) = .instr i

/-- Every command the decoder accepts is the encoding of the well-formed instruction it gives: no bit is dropped
(30_encoding.md, R91 to R95). -/
def Obligations.EncodeOfDecode : Prop :=
  ∀ (c : Command) (i : Instr), decode c = .instr i → i.wf = true ∧ encode i = c

/-- A command decodes to an instruction of a table row exactly when it matches the row's mask and bits
(spec/opcode_table.json, 30_encoding.md R95). -/
def Obligations.DecodeMatchesOpcodeTable : Prop :=
  ∀ row ∈ opcodeTable, ∀ c : Command,
    (∃ i, decode c = .instr i ∧ mnemonic i = row.name) ↔ c &&& row.mask = row.bits

/-- Words the spec writes out decode to the instructions it says they are (30_encoding.md R100; 95_test_vectors.md 2.1). -/
def Obligations.SpecWordsDecode : Prop :=
  decode 0x0C10000000000000 = .instr (.mgBeginw 1) ∧
  decode 0x08000001_00000000 = .instr (.mgConfig 0 .lowToHigh) ∧
  decode 0x1C000000_00001234 = .instr (.mgPldwr 0 0 0x1234) ∧
  decode 0x48000001_00000004 = .instr (.pwmPset 1 4) ∧
  decode 0x50000000_00004000 = .instr (.pwmSetduty 0 0x4000) ∧
  decode 0x74000000_000C000A = .instr (.pwmSetdt 0 10 12) ∧
  decode 0x88000000_00000000 = .instr (.pwmSetpassive 0) ∧
  decode 0xF400FFFB_00000000 = .instr (.hBra (-5))

/-- The eight transport bytes of a command decode to that command's verdict, and the bytes after it are left. The spec
derives this layout from its own rules (30_encoding.md, section 3, "Transport"). -/
def Obligations.TransportBytesDecode : Prop :=
  ∀ (c : Command) (rest : List Byte), decodeBytes (commandBytes c ++ rest) = (decode c, rest)

/-- R96: a fetched command with a reserved opcode faults with ILLEGAL_OPCODE; the all-zero command is one of them. -/
def Obligations.ReservedOpcodeFaults : Prop :=
  ∀ (s : State) (ctx : Ctx) (c : Command), Fetches s ctx c →
    ((opField c).toNat = 0x00 ∨ (0x09 ≤ (opField c).toNat ∧ (opField c).toNat ≤ 0x0F) ∨
      (0x25 ≤ (opField c).toNat ∧ (opField c).toNat ≤ 0x3B) ∨ (opField c).toNat = 0x3F ∨ c = 0) →
    step s = .next (stopped (moved s) c 0x01)

/-- R93: a fetched command with a table row's opcode and a nonzero must-be-zero bit of that row faults with RESERVED_FIELD,
and nothing else happens. -/
def Obligations.ReservedFieldFaults : Prop :=
  ∀ row ∈ opcodeTable, ∀ (s : State) (ctx : Ctx) (c : Command), Fetches s ctx c →
    c &&& opBits = row.bits → c &&& row.mask ≠ row.bits →
    step s = .next (stopped (moved s) c 0x02)

/-- R97: a harness opcode is executed by the harness; at the block's command port it faults with ILLEGAL_OPCODE. -/
def Obligations.HarnessOpcodeAtPortFaults : Prop :=
  ∀ c : Command, (opField c = 0x3C ∨ opField c = 0x3D ∨ opField c = 0x3E) →
    decodeBlock c = .bad .illegalOpcode ∧
    (∀ s : State, portStep exec c s = .next (stopped s c 0x01)) ∧
    (∀ s : State, fetchedStep exec c s = onVerdict exec c (decodeHarness c) s)

/-! ## Steps -/

/-- When the command at the running context's `PC` decodes to an instruction and no interrupt is taken, the step is exec of
that instruction, with only the schedule's first move used up (48_harness.md R240, 60_exceptions.md R251; the schedule is the
model's, log entry 1). `withFetchWord` places a word so that the very next step runs it (the model's, log entry 8). -/
def Obligations.StepRunsDecodedInstruction : Prop :=
  (∀ (s : State) (ctx : Ctx) (c : Command) (i : Instr), Fetches s ctx c → decode c = .instr i →
    step s = exec i (moved s)) ∧
  (∀ (s : State) (nbits w : Nat) (i : Instr), decode (BitVec.ofNat 64 (w % 2 ^ nbits)) = .instr i →
    step (s.withFetchWord nbits w) = exec i (moved (s.withFetchWord nbits w)))

/-- R244: past the end of its program a context acts as if an H.END stood there; an empty HI program is an entry and a
return with no command. -/
def Obligations.ProgramEndActsAsEnd : Prop :=
  (∀ (s : State) (ctx : Ctx), nextEvent s = .cpu → entryEnabled s = false → running s = some ctx →
    (ctxOf s ctx).prog.length ≤ (ctxOf s ctx).pc →
    step s = exec .hEnd (moved s) ∧
    step s = .next (match ctx with
      | .lo => { moved s with loDone := true }
      | .hi => { moved s with ie := s.ieAtEntry, hiActive := false })) ∧
  (∀ s : State, nextEvent s = .cpu → nextEvent (moved s) = .cpu → s.hi.prog = [] → entryEnabled s = true →
    ∃ t, step s = .next t ∧
      step t = .next { moved (moved s) with irqPend := false, ieAtEntry := s.ie, hi := { s.hi with pc := 0 } })

/-- R254: interrupt entry, taken by the processor before LO's next command whenever it is enabled, and only then. -/
def Obligations.InterruptEntry : Prop :=
  (∀ s : State, nextEvent s = .cpu → s.irqPend = true → s.ie = true → s.hiActive = false → s.faulted = false →
    step s = .next { moved s with ieAtEntry := s.ie, irqPend := false, hiActive := true, hi := { s.hi with pc := 0 } }) ∧
  (∀ s t : State, step s = .next t → s.hiActive = false → t.hiActive = true →
    nextEvent s = .cpu ∧ s.irqPend = true ∧ s.ie = true ∧ s.faulted = false)

/-- R255: interrupt return, by HI's H.END or by running off its program; no nesting; LO never preempts HI; a request raised
during the handler stays pending and is taken after the return if `IE = 1` then. -/
def Obligations.InterruptReturn : Prop :=
  (∀ s : State, s.hiActive = true → exec .hEnd s = .next { s with ie := s.ieAtEntry, hiActive := false }) ∧
  (∀ s : State, s.hiActive = true → s.faulted = false → nextEvent s = .cpu → s.hi.prog.length ≤ s.hi.pc →
    step s = .next { moved s with ie := s.ieAtEntry, hiActive := false }) ∧
  (∀ s t : State, s.hiActive = true → step s = .next t →
    t.lo = s.lo ∧ t.loDone = s.loDone ∧ (s.irqPend = true → t.irqPend = true)) ∧
  (∀ s : State, s.hiActive = true → s.faulted = false → s.irqPend = true → s.ieAtEntry = true →
    ∀ t, exec .hEnd s = .next t → entryEnabled t = true)

/-- R256: a command or harness line that faults writes the four fault registers and nothing else; `RES` and `PC` are
unchanged, and `FAULT_CMD` is the whole command at `PC[ctx]`. -/
def Obligations.FaultEntryWritesOnlyTheRecord : Prop :=
  (∀ (i : Instr) (s t : State), exec i s = .next t → s.faulted = false → t.faulted = true →
    t = stopped s (encode i) t.faultCause ∧ 1 ≤ t.faultCause.toNat ∧ t.faultCause.toNat ≤ 12) ∧
  (∀ s t : State, step s = .next t → s.faulted = false → t.faulted = true →
    ∃ ctx c, Fetches s ctx c ∧ t = stopped (moved s) c t.faultCause ∧
      1 ≤ t.faultCause.toNat ∧ t.faultCause.toNat ≤ 12)

/-- After a fault-stop no context step and no interrupt entry is taken; the ticks of running channels and the ENV steps go
on as before (60_exceptions.md, "Fault-stop"). That a processor step then leaves the state as it is, is the model's choice
(log entry 3), and so is the schedule whose first move is used up (log entry 1): the spec says only that no such step is
enabled. -/
def Obligations.FaultStopHaltsContexts : Prop :=
  ∀ s : State, s.faulted = true →
    step s = .next (match nextEvent s with
      | .cpu => moved s
      | .raise => { moved s with irqPend := true }
      | .trip c => tripStep c (moved s)
      | .sync c => syncStep c (moved s)
      | .tick c => tickStep c (moved s))

/-- R260: no step and no command clears `FAULTED`, the record a fault-stop left is kept by every step, only reset has
`FAULTED = 0`, and a faulted state is never the end of a run. -/
def Obligations.FaultStopIsSticky : Prop :=
  (∀ s t : State, s.faulted = true → step s = .next t →
    t.faulted = true ∧ t.faultCause = s.faultCause ∧ t.faultCmd = s.faultCmd ∧ t.faultCtx = s.faultCtx) ∧
  (∀ (i : Instr) (s t : State), s.faulted = true → exec i s = .next t → t.faulted = true) ∧
  (∀ (c : Config) (g p n : Nat) (lo hi : List Command), (State.resetOf c g p n lo hi).faulted = false) ∧
  (∀ s : State, s.faulted = true → runEnded s = false)

/-- R23: `IE` is written only by the MEMGRD begins and completes and by the interrupt's return; interrupt entry, ticks and
ENV steps leave it. While it is 0 LO is not preempted, and with a request pending while it is 1 the processor's next step is
the entry. It resets to `IE_RESET`. -/
def Obligations.OnlyHandoffWritesInterruptEnable : Prop :=
  (∀ (i : Instr) (s t : State), mayWriteIe i = false → exec i s = .next t → t.ie = s.ie) ∧
  (∀ s t : State, step s = .next t → (nextEvent s ≠ .cpu ∨ entryEnabled s = true) → t.ie = s.ie) ∧
  (∀ s t : State, s.hiActive = false → s.ie = false → step s = .next t → t.hiActive = false) ∧
  (∀ s : State, s.hiActive = false → s.faulted = false → s.ie = true → s.irqPend = true → nextEvent s = .cpu →
    ∃ t, step s = .next t ∧ t.hiActive = true ∧ t.lo = s.lo) ∧
  (∀ (c : Config) (g p n : Nat) (lo hi : List Command), (State.resetOf c g p n lo hi).ie = c.ieReset)

/-- A critical section is never preempted: from a state in which LO runs with `IE = 0`, through any steps of the timers, the
environment and LO in which LO fetches no command that writes `IE`, HI never runs, `IE` stays 0 and nothing of HI changes, so
only LO's own commands can touch a payload (20_memory.md section 4, the ordering guarantee, and 60_exceptions.md section 2;
the spec marks the guarantee as derived). -/
def Obligations.MaskedSectionIsNeverPreempted : Prop :=
  ∀ (n : Nat) (s t : State), s.hiActive = false → s.ie = false → Host.Core.run core n s = .next t →
    (∀ k < n, ∀ u ctx c i, Host.Core.run core k s = .next u → Fetches u ctx c → decode c = .instr i → mayWriteIe i = false) →
    t.hiActive = false ∧ t.ie = false ∧ t.hi = s.hi

/-- A command writes the result register of its own context only, and only if it returns a value; the other context is not
touched at all (10_state.md R21). -/
def Obligations.ResultGoesToIssuerOnly : Prop :=
  ∀ (i : Instr) (s t : State), exec i s = .next t →
    (s.hiActive = true → t.lo = s.lo ∧ (returnsValue i = false → t.hi.res = s.hi.res)) ∧
    (s.hiActive = false → t.hi = s.hi ∧ (returnsValue i = false → t.lo.res = s.lo.res))

/-- R83: no step writes a command program. -/
def Obligations.ProgramsAreNeverWritten : Prop :=
  ∀ s t : State, step s = .next t → t.lo.prog = s.lo.prog ∧ t.hi.prog = s.hi.prog

/-- No step changes a parameter or the number of guards, instances or channels, and the schedule goes on by one move at every
step, written by nothing else (00_scope.md, "Implementation parameters"; 60_exceptions.md, "Steps and scheduling"). That State
holds the parameters and the schedule is the model's choice (log entries 1, 4 and 5). -/
def Obligations.ParametersAreFixed : Prop :=
  ∀ s t : State, step s = .next t →
    t.cfg = s.cfg ∧ t.guards.length = s.guards.length ∧ t.insts.length = s.insts.length ∧
    t.chans.length = s.chans.length ∧ t.sched = schedRest s.sched

/-- The pins of a channel change at no step but a tick of that channel (46_pwm_timebase.md, "Trip zone and pins", which the
spec supplies from general knowledge: "The pins are registered: they change only at a tick"). -/
def Obligations.PinsChangeOnlyAtTicks : Prop :=
  ∀ (s t : State) (c : Nat), step s = .next t → nextEvent s ≠ .tick c →
    (chan? t c).map (fun x => (x.pinA, x.pinB)) = (chan? s c).map (fun x => (x.pinA, x.pinB))

/-! ## Timer and environment -/

/-- RAISE sets the request, TRIP the trip latch, SYNC loads the phase register (60_exceptions.md, "Interrupts";
46_pwm_timebase.md, "Environment steps", from general knowledge). A step that is not enabled changes nothing (the model's
choice, log entry 2). -/
def Obligations.EnvironmentSteps : Prop :=
  (∀ s : State, nextEvent s = .raise → step s = .next { moved s with irqPend := true }) ∧
  (∀ (s : State) (c : Nat) (cl : Channel), nextEvent s = .trip (c + 1) → s.chans[c]? = some cl →
    step s = .next (if s.cfg.tripIn then { moved s with chans := s.chans.set c { cl with tzOst := true } } else moved s)) ∧
  (∀ (s : State) (c : Nat) (cl : Channel), nextEvent s = .sync (c + 1) → s.chans[c]? = some cl →
    step s = .next (if s.cfg.syncIn ∧ cl.run then
      { moved s with chans := s.chans.set c { cl with ctr := cl.phs, ctrDir := if cl.ctrMode = .upDown then cl.phsDir else true } }
      else moved s))

/-- A tick changes the cluster of its own channel and nothing else, and that only if the channel runs
(46_pwm_timebase.md, "The timer agent" and "The tick as one step"). The spec does not let a stopped channel tick: that a
scheduled tick of one changes nothing is the model's choice (log entry 2). -/
def Obligations.TickTouchesOnlyItsCluster : Prop :=
  ∀ (s t : State) (c : Nat), nextEvent s = .tick c → step s = .next t →
    t = { moved s with chans := t.chans } ∧
    (∀ d, d ≠ c → chan? t d = chan? s d) ∧
    (∀ cl, chan? s c = some cl → cl.run = false → chan? t c = some cl) ∧
    (∀ cl, chan? s c = some cl → cl.run = true → chan? t c = some (tickChannel s.cfg cl))

/-- In sawtooth mode the counter runs 0, 1, ..., PRD, 0: a period is PRD + 1 ticks (46_pwm_timebase.md, "Counter", which the
spec supplies from general knowledge). -/
def Obligations.SawtoothPeriodLength : Prop :=
  ∀ (cfg : Config) (ch : Channel), ch.ctrMode = .up → ch.prd ≠ 0 → ch.prdSh = ch.prd → ch.ctr = 0 →
    (∀ k ≤ ch.prd.toNat, ((tickChannel cfg)^[k] ch).ctr.toNat = k) ∧
    ((tickChannel cfg)^[ch.prd.toNat + 1] ch).ctr = 0

/-- In symmetric mode the counter runs 0, ..., PRD, ..., 1, 0 and counts up again: a period is 2 PRD ticks
(46_pwm_timebase.md, "Counter", which the spec supplies from general knowledge). -/
def Obligations.SymmetricPeriodLength : Prop :=
  ∀ (cfg : Config) (ch : Channel), ch.ctrMode = .upDown → ch.prd ≠ 0 → ch.prdSh = ch.prd → ch.ctr = 0 → ch.ctrDir = true →
    (∀ k ≤ ch.prd.toNat, ((tickChannel cfg)^[k] ch).ctr.toNat = k) ∧
    (∀ k ≤ ch.prd.toNat, ((tickChannel cfg)^[ch.prd.toNat + k] ch).ctr.toNat = ch.prd.toNat - k) ∧
    ((tickChannel cfg)^[2 * ch.prd.toNat] ch).ctrDir = true

/-- A counter within its period stays within the period the tick leaves (46_pwm_timebase.md, "Counter" and "Shadow loads",
from general knowledge). -/
def Obligations.CounterStaysWithinPeriod : Prop :=
  ∀ (cfg : Config) (ch : Channel), ch.prd ≠ 0 → ch.prdSh ≠ 0 → ch.ctr.toNat ≤ ch.prd.toNat →
    (tickChannel cfg ch).prd ≠ 0 ∧ (tickChannel cfg ch).ctr.toNat ≤ (tickChannel cfg ch).prd.toNat

/-- At a tick each shadow loads whole at its own event, zero being the new counter 0 and period the new counter equal to the
old period (46_pwm_timebase.md, "Shadow loads", from general knowledge). -/
def Obligations.ShadowLoadsAtEvents : Prop :=
  ∀ (cfg : Config) (ch : Channel),
    let t := tickChannel cfg ch
    let fire (le : LoadEvent) : Prop :=
      (le = .zero ∧ t.ctr = 0) ∨ (le = .period ∧ t.ctr = ch.prd) ∨ (le = .zeroOrPeriod ∧ (t.ctr = 0 ∨ t.ctr = ch.prd))
    (cfg.prdLoad = .zero ∧ t.ctr = 0 → t.prd = ch.prdSh) ∧ (¬ (cfg.prdLoad = .zero ∧ t.ctr = 0) → t.prd = ch.prd) ∧
    (fire ch.cmpLoad → t.cmpa = ch.cmpaSh) ∧ (¬ fire ch.cmpLoad → t.cmpa = ch.cmpa) ∧
    (fire ch.dbLoad → t.dbOut = ch.dbOutSh) ∧ (¬ fire ch.dbLoad → t.dbOut = ch.dbOut) ∧
    (fire ch.csfLoad → t.csf = ch.csfSh) ∧ (¬ fire ch.csfLoad → t.csf = ch.csf) ∧
    t.prdSh = ch.prdSh ∧ t.cmpaSh = ch.cmpaSh ∧ t.dbOutSh = ch.dbOutSh ∧ t.csfSh = ch.csfSh

/-- At every tick that leaves the dead band Full and the trip latch clear, the two switches are not both driven on
(46_pwm_timebase.md, "Non-overlap", which the spec marks as derived). -/
def Obligations.PinsDoNotOverlap : Prop :=
  ∀ (cfg : Config) (ch : Channel),
    (tickChannel cfg ch).dbOut = .full → (tickChannel cfg ch).tzOst = false → overlap (tickChannel cfg ch) = false

/-- Once both shadows of a passive transition have loaded, every later tick drives the safe level on both pins while the
outputs are enabled, and the trip actions while they are tripped (45_pwm_output.md, "Outcome of a passive transition",
which the spec marks as derived). -/
def Obligations.PassiveStateHoldsSafeLevel : Prop :=
  ∀ (cfg : Config) (ch : Channel), passive ch → ∀ n : Nat,
    let t := (tickChannel cfg)^[n + 1] ch
    passive t ∧ t.dbPol = ch.dbPol ∧ t.tzOst = ch.tzOst ∧
    (ch.tzOst = false → t.pinA = safePin ch ∧ t.pinB = safePin ch) ∧
    (ch.tzOst = true → ch.tzA = safeTripOf ch → ch.tzB = safeTripOf ch → t.pinA = safePin ch ∧ t.pinB = safePin ch) ∧
    (ch.tzOst = true → ch.tzA = .highZ → ch.tzB = .highZ → t.pinA = .z ∧ t.pinB = .z)

/-- Sequence 1 in sawtooth mode with the runner-default actions: over one period that starts with the latch set at zero, the
latch is 1 at exactly the ticks whose count is below the compare, so C of PRD + 1 ticks (44_pwm_sequence.md, "The sequence
table", which the spec marks as derived from its own default table). -/
def Obligations.SawtoothDutyFraction : Prop :=
  ∀ (cfg : Config) (ch : Channel), ch.ctrMode = .up → ch.prd ≠ 0 → ch.prdSh = ch.prd → ch.cmpaSh = ch.cmpa →
    ch.cmpa.toNat ≤ ch.prd.toNat + 1 →
    ch.aqa = aqActions runnerAqTable 1 .up → ch.ctr = 0 → ch.aqla = decide (ch.cmpa ≠ 0) →
    (∀ k ≤ ch.prd.toNat, ((tickChannel cfg)^[k] ch).aqla = decide (k < ch.cmpa.toNat)) ∧
    ((tickChannel cfg)^[ch.prd.toNat + 1] ch).aqla = decide (ch.cmpa ≠ 0)

/-! ## MEMGRD -/

/-- MG.INIT: a large enough block binds the guard and returns its handle, an undersized one returns NULL and changes nothing
else (41_memgrd.md R121, 60_exceptions.md R261). -/
def Obligations.MgInitBindsGuard : Prop :=
  ∀ (s : State) (h size : Nat) (g : Guard), s.guards[h]? = some g →
    let bound : Guard :=
      { init := true, conf := false, dir := .highToLow, ready := false, saved := false, payload := g.payload }
    (s.cfg.mgObjSize ≤ size →
      exec (.mgInit h size) s = .next (answered (BitVec.ofNat 32 h) { s with guards := s.guards.set h bound })) ∧
    (size < s.cfg.mgObjSize → exec (.mgInit h size) s = .next (answered 0xFFFFFFFF s))

/-- MG.CONFIG sets the direction and marks the guard configured (41_memgrd.md R122). -/
def Obligations.MgConfigSetsDirection : Prop :=
  ∀ (s : State) (h : Nat) (dir : Direction) (g : Guard), s.guards[h]? = some g → g.init = true →
    exec (.mgConfig h dir) s = .next (returned { s with guards := s.guards.set h { g with dir := dir, conf := true } })

/-- MG.BEGINW: granted when the slot is empty; on LowToHigh it masks, and a refusal leaves `IE` as it was
(41_memgrd.md R123). -/
def Obligations.BeginWrite : Prop :=
  ∀ (s : State) (h : Nat) (g : Guard), GuardReady s h g →
    (g.dir = .lowToHigh → g.ready = false → exec (.mgBeginw h) s =
      .next (answered 1 { s with ie := false, guards := s.guards.set h { g with saved := s.ie } })) ∧
    (g.dir = .lowToHigh → g.ready = true → exec (.mgBeginw h) s =
      .next (answered 0 { s with guards := s.guards.set h { g with saved := s.ie } })) ∧
    (g.dir = .highToLow → exec (.mgBeginw h) s = .next (answered (if g.ready then 0 else 1) s))

/-- MG.BEGINR: granted when an item is present and consuming nothing; on HighToLow it masks, and a refusal leaves `IE` as it
was (41_memgrd.md R125). -/
def Obligations.BeginRead : Prop :=
  ∀ (s : State) (h : Nat) (g : Guard), GuardReady s h g →
    (g.dir = .highToLow → g.ready = true → exec (.mgBeginr h) s =
      .next (answered 1 { s with ie := false, guards := s.guards.set h { g with saved := s.ie } })) ∧
    (g.dir = .highToLow → g.ready = false → exec (.mgBeginr h) s =
      .next (answered 0 { s with guards := s.guards.set h { g with saved := s.ie } })) ∧
    (g.dir = .lowToHigh → exec (.mgBeginr h) s = .next (answered (if g.ready then 1 else 0) s))

/-- MG.COMPLW and MG.COMPLR pass the token and, on the side that masks, restore the saved mask; neither has a result
(41_memgrd.md R124, R126). -/
def Obligations.CompleteMovesToken : Prop :=
  ∀ (s : State) (h : Nat) (g : Guard), GuardReady s h g →
    (exec (.mgComplw h) s = .next (returned { s with
      guards := s.guards.set h { g with ready := true }, ie := if g.dir = .lowToHigh then g.saved else s.ie })) ∧
    (exec (.mgComplr h) s = .next (returned { s with
      guards := s.guards.set h { g with ready := false }, ie := if g.dir = .highToLow then g.saved else s.ie }))

/-- MG.PLDWR stores its word, every other word of the guard reads as before, and nothing but that payload changes; a
following MG.PLDRD of the word returns it; an index outside the payload faults BAD_INDEX (41_memgrd.md R127, R128;
20_memory.md R71). -/
def Obligations.PayloadWrite : Prop :=
  ∀ (s : State) (h index : Nat) (value : Word) (g : Guard), GuardReady s h g →
    (index < s.cfg.payloadWords → ∃ m : Payload,
      exec (.mgPldwr h index value) s = .next (returned { s with guards := s.guards.set h { g with payload := m } }) ∧
      (∀ j, memRead h { g with payload := m } j = if j = index then value else memRead h g j) ∧
      (∀ t, exec (.mgPldwr h index value) s = .next t → exec (.mgPldrd h index) t = .next (answered value t))) ∧
    (s.cfg.payloadWords ≤ index →
      exec (.mgPldwr h index value) s = .next (stopped s (encode (.mgPldwr h index value)) 0x0C))

/-- MG.PLDRD returns the stored word and changes nothing else; a word never written is the free value of that word; an index
outside the payload faults BAD_INDEX (41_memgrd.md R128; that an unwritten word gives the same value at each read is the
model's choice, log entry 6). -/
def Obligations.PayloadRead : Prop :=
  ∀ (s : State) (h index : Nat) (g : Guard), GuardReady s h g →
    (∀ v, index < s.cfg.payloadWords → payloadStored g.payload index = some v →
      exec (.mgPldrd h index) s = .next (answered v s)) ∧
    (index < s.cfg.payloadWords → payloadStored g.payload index = none →
      exec (.mgPldrd h index) s = .next (answered (Config.payloadAtReset h index) s)) ∧
    (s.cfg.payloadWords ≤ index → exec (.mgPldrd h index) s = .next (stopped s (encode (.mgPldrd h index)) 0x0C))

/-- The common checks of the MEMGRD commands, in their order: BAD_HANDLE, UNINIT, UNCONFIGURED (60_exceptions.md R258,
41_memgrd.md R120). -/
def Obligations.MgCommonChecks : Prop :=
  ∀ (i : Instr) (s : State) (h : Nat) (need : Setup), mgTarget i = some (h, need) →
    (s.guards.length ≤ h → exec i s = .next (stopped s (encode i) 0x03)) ∧
    (∀ g, s.guards[h]? = some g → need ≠ .any → g.init = false → exec i s = .next (stopped s (encode i) 0x04)) ∧
    (∀ g, s.guards[h]? = some g → need = .configured → g.init = true → g.conf = false →
      exec i s = .next (stopped s (encode i) 0x05))

/-- No double-buffering and an idempotent peek: after MG.COMPLW, MG.BEGINW is refused and MG.BEGINR is granted twice, in both
directions (41_memgrd.md, "Properties that follow", which the spec marks as derived; 90_conflicts.md C2). -/
def Obligations.NoDoubleBuffering : Prop :=
  ∀ (s : State) (h : Nat) (g : Guard), GuardReady s h g →
    ∃ t u v w, exec (.mgComplw h) s = .next t ∧
      exec (.mgBeginw h) t = .next u ∧ resOf u = 0 ∧
      exec (.mgBeginr h) t = .next v ∧ resOf v = 1 ∧
      exec (.mgBeginr h) v = .next w ∧ resOf w = 1

/-- What the MEMGRD commands leave unchanged when they answer a next state, a fault-stop included: the PWM side, the staged
parameters, the interrupt bookkeeping, both programs, the other context, every other guard, and every payload word but the
one MG.PLDWR stores (41_memgrd.md R121 to R128, "State written"). -/
def Obligations.MgFrame : Prop :=
  ∀ (i : Instr) (s t : State) (h : Nat) (need : Setup), mgTarget i = some (h, need) → exec i s = .next t →
    t.cfg = s.cfg ∧ t.pstage = s.pstage ∧ t.insts = s.insts ∧ t.chans = s.chans ∧ t.sched = s.sched ∧
    t.irqPend = s.irqPend ∧ t.hiActive = s.hiActive ∧ t.ieAtEntry = s.ieAtEntry ∧ t.loDone = s.loDone ∧
    t.lo.prog = s.lo.prog ∧ t.hi.prog = s.hi.prog ∧
    (s.hiActive = true → t.lo = s.lo) ∧ (s.hiActive = false → t.hi = s.hi) ∧
    (t.faulted = s.faulted ∧ t.faultCause = s.faultCause ∧ t.faultCmd = s.faultCmd ∧ t.faultCtx = s.faultCtx ∨
      t.guards = s.guards ∧ t.lo = s.lo ∧ t.hi = s.hi ∧ t.ie = s.ie) ∧
    (∀ k, k ≠ h → t.guards[k]? = s.guards[k]?) ∧
    (∀ k j, (∀ v, i ≠ .mgPldwr k j v) → Memory.word t k j = Memory.word s k j)

/-! ## PWM -/

/-- PWM.INIT: a large enough block binds the instance, unbinds the channel it had and returns the handle; an undersized one
returns NULL and changes nothing else (42_pwm_config.md R140, 60_exceptions.md R261). -/
def Obligations.PwmInitBindsInstance : Prop :=
  ∀ (s : State) (h size : Nat) (p : PwmInst), s.insts[h]? = some p →
    (s.cfg.pwmObjSize ≤ size →
      exec (.pwmInit h size) s = .next (answered (BitVec.ofNat 32 h) { s with
        insts := s.insts.set h { init := true, conf := false, ch := 0, nomPrd := 0, seq := 0 },
        chans := if p.conf then unboundAt p.ch.toNat s.chans else s.chans })) ∧
    (size < s.cfg.pwmObjSize → exec (.pwmInit h size) s = .next (answered 0xFFFFFFFF s))

/-- PWM.PDEF loads the defaults; PWM.PSET stages one legal value in one field, and faults BAD_PARAM on any other field or
value (42_pwm_config.md R141, R142; 10_state.md R26). -/
def Obligations.ParameterStaging : Prop :=
  (∀ s : State, exec .pwmPdef s = .next (returned { s with pstage := s.cfg.defaultParams })) ∧
  (∀ (s : State) (v : Nat),
    (v ≤ 1 → exec (.pwmPset 0 v) s =
      .next (returned { s with pstage := { s.pstage with ctrMode := if v = 0 then .up else .upDown } })) ∧
    (1 ≤ v → v ≤ 65535 → exec (.pwmPset 1 v) s =
      .next (returned { s with pstage := { s.pstage with period := BitVec.ofNat 16 v } })) ∧
    (v ≤ 65535 → exec (.pwmPset 2 v) s =
      .next (returned { s with pstage := { s.pstage with dbRed := BitVec.ofNat 16 v } })) ∧
    (v ≤ 65535 → exec (.pwmPset 3 v) s =
      .next (returned { s with pstage := { s.pstage with dbFed := BitVec.ofNat 16 v } })) ∧
    (v ≤ 1 → exec (.pwmPset 4 v) s =
      .next (returned { s with pstage := { s.pstage with dbPol := decide (v = 1) } })) ∧
    (v ≤ 3 → exec (.pwmPset 5 v) s =
      .next (returned { s with pstage := { s.pstage with seq := BitVec.ofNat 2 v } })) ∧
    (v ≤ 2 → exec (.pwmPset 6 v) s =
      .next (returned { s with pstage := { s.pstage with
        cmpLoad := if v = 0 then .zero else if v = 1 then .period else .zeroOrPeriod } }))) ∧
  (∀ (s : State) (field v : Nat),
    (6 < field ∨ (field = 0 ∧ 1 < v) ∨ (field = 1 ∧ (v = 0 ∨ 65535 < v)) ∨ (field = 2 ∧ 65535 < v) ∨
      (field = 3 ∧ 65535 < v) ∨ (field = 4 ∧ 1 < v) ∨ (field = 5 ∧ 3 < v) ∨ (field = 6 ∧ 2 < v)) →
    exec (.pwmPset field v) s = .next (stopped s (encode (.pwmPset field v)) 0x0B))

/-- PWM.CONFIG on a free channel, or on one the instance is bound to: the effects of R144, all at once; the pins are not
written (42_pwm_config.md R144). -/
def Obligations.PwmConfigEffects : Prop :=
  ∀ (s : State) (h c : Nat) (p : PwmInst) (cl : Channel), s.insts[h]? = some p → p.init = true →
    s.chans[c]? = some cl → (cl.bound = none ∨ cl.bound = some h) →
    let P := s.pstage
    let c0 : Half := if P.seq.getLsbD 0 then 0
      else BitVec.ofNat 16 (min (if P.ctrMode = .upDown then P.period.toNat else P.period.toNat + 1) 65535)
    let leg : PwmInst :=
      { init := true, conf := true, ch := BitVec.ofNat 16 (c + 1), nomPrd := P.period, seq := P.seq }
    let cluster : Channel :=
        { bound := some h, run := true, ctrMode := P.ctrMode, prd := P.period, prdSh := P.period,
          ctr := 0, ctrDir := true, phs := 0, phsDir := true, cmpa := c0, cmpaSh := c0, cmpLoad := P.cmpLoad,
          aqa := aqActions s.cfg.aqTable P.seq P.ctrMode, aqla := false, aqlb := false,
          csf := ⟨.off, .off⟩, csfSh := ⟨.off, .off⟩, csfLoad := .zero,
          dbRed := min P.dbRed.toNat (2 ^ s.cfg.dbBits - 1), dbFed := min P.dbFed.toNat (2 ^ s.cfg.dbBits - 1),
          dbPol := P.dbPol, dbOut := .full, dbOutSh := .full, dbLoad := .zero,
          hiRun := 0, loRun := 2 ^ s.cfg.dbBits, tzA := .highZ, tzB := .highZ, tzOst := true,
          pinA := cl.pinA, pinB := cl.pinB }
    let others := if p.conf = true ∧ p.ch.toNat ≠ c + 1 then unboundAt p.ch.toNat s.chans else s.chans
    exec (.pwmConfig h (c + 1)) s =
      .next (returned { s with insts := s.insts.set h leg, chans := others.set c cluster })

/-- PWM.CONFIG on a channel that does not exist faults BAD_CHANNEL, on one bound to another instance CHANNEL_ALIAS
(42_pwm_config.md R143). -/
def Obligations.PwmConfigFaults : Prop :=
  ∀ (s : State) (h : Nat) (p : PwmInst), s.insts[h]? = some p → p.init = true →
    (∀ c, (c = 0 ∨ s.chans.length < c) →
      exec (.pwmConfig h c) s = .next (stopped s (encode (.pwmConfig h c)) 0x06)) ∧
    (∀ c cl k, s.chans[c]? = some cl → cl.bound = some k → k ≠ h →
      exec (.pwmConfig h (c + 1)) s = .next (stopped s (encode (.pwmConfig h (c + 1))) 0x07))

/-- PWM.SETDUTY: the compare shadow is the floor of the clamped duty, inverted for an even sequence, times full scale, cut to
16 bits; in exact rationals (43_pwm_modulation.md R160 to R162). -/
def Obligations.DutyCompare : Prop :=
  ∀ (s : State) (h : Nat) (duty : Word) (p : PwmInst) (cl : Channel), Leg s h p cl →
    let d : ℚ := if p.seq.getLsbD 0 then clampUnit (q duty) else 1 - clampUnit (q duty)
    exec (.pwmSetduty h duty) s = .next (returned (withCluster s p
      { cl with cmpaSh := BitVec.ofNat 16 (min ⌊d * (fullScaleOf cl : ℚ)⌋ 65535).toNat }))

/-- PWM.SETPHASE: a phase outside [0,1) collapses to zero; the phase register and direction by counter mode; in exact
rationals (43_pwm_modulation.md R164, 90_conflicts.md C1). -/
def Obligations.PhaseRegister : Prop :=
  ∀ (s : State) (h : Nat) (phase : Word) (p : PwmInst) (cl : Channel), Leg s h p cl →
    let ph : ℚ := if q phase < 0 ∨ 1 ≤ q phase then 0 else q phase
    let P : ℚ := (cl.prdSh.toNat : ℚ)
    (cl.ctrMode = .upDown → ph ≤ 1 / 2 → exec (.pwmSetphase h phase) s =
      .next (returned (withCluster s p { cl with phsDir := true, phs := BitVec.ofNat 16 ⌊P * ph * 2⌋.toNat }))) ∧
    (cl.ctrMode = .upDown → ¬ ph ≤ 1 / 2 → exec (.pwmSetphase h phase) s =
      .next (returned (withCluster s p { cl with phsDir := false, phs := BitVec.ofNat 16 ⌊P * (1 - ph) * 2⌋.toNat }))) ∧
    (cl.ctrMode = .up → exec (.pwmSetphase h phase) s =
      .next (returned (withCluster s p { cl with phsDir := true, phs :=
        if (⌊(P + 1) * (1 - ph)⌋ : ℚ) > P then 0 else BitVec.ofNat 16 ⌊(P + 1) * (1 - ph)⌋.toNat })))

/-- PWM.SCALEPRD: the floor of the scaled nominal period, clamped to 1..65535, goes to the shadow and, with an Immediate
period load, to the active period; a factor not above 0 faults BAD_SCALE; in exact rationals (43_pwm_modulation.md R165,
90_conflicts.md C6). -/
def Obligations.PeriodScaling : Prop :=
  ∀ (s : State) (h : Nat) (factor : Word) (p : PwmInst) (cl : Channel), Leg s h p cl →
    let N : ℚ := (p.nomPrd.toNat : ℚ)
    let x : ℚ := if cl.ctrMode = .upDown then N * q factor else (N + 1) * q factor - 1
    let P' : Half := BitVec.ofNat 16 (min (max ⌊x⌋ 1) 65535).toNat
    (0 < q factor → exec (.pwmScaleprd h factor) s =
      .next (returned (withCluster s p
        { cl with prdSh := P', prd := if s.cfg.prdLoad = .immediate then P' else cl.prd }))) ∧
    (q factor ≤ 0 → exec (.pwmScaleprd h factor) s =
      .next (stopped s (encode (.pwmScaleprd h factor)) 0x09))

/-- The reads return what they name and change nothing else: PWM.GETFULL, PWM.GETCTR, PWM.GETDIR, PWM.GETSEQ, PWM.ISEN
(43_pwm_modulation.md R166 to R168, 44_pwm_sequence.md R181, 45_pwm_output.md R194). -/
def Obligations.PwmReads : Prop :=
  ∀ (s : State) (h : Nat) (p : PwmInst) (cl : Channel), Leg s h p cl →
    exec (.pwmGetfull h) s = .next (answered (BitVec.ofNat 32 (fullScaleOf cl)) s) ∧
    exec (.pwmGetctr h) s = .next (answered (BitVec.ofNat 32 cl.ctr.toNat) s) ∧
    exec (.pwmGetdir h) s = .next (answered (if cl.ctrDir then 1 else 0) s) ∧
    exec (.pwmGetseq h) s = .next (answered (BitVec.ofNat 32 p.seq.toNat) s) ∧
    exec (.pwmIsen h) s = .next (answered (if cl.tzOst then 0 else 1) s)

/-- PWM.SETSEQ writes the sequence and its actions at once and re-maps no compare; a sequence above 3 faults BAD_SEQUENCE
and mutates nothing (44_pwm_sequence.md R180). -/
def Obligations.SetSequence : Prop :=
  ∀ (s : State) (h seq : Nat) (p : PwmInst) (cl : Channel), Leg s h p cl →
    (seq ≤ 3 → exec (.pwmSetseq h seq) s = .next (returned (withCluster
      { s with insts := s.insts.set h { p with seq := BitVec.ofNat 2 seq } } p
      { cl with aqa := aqActions s.cfg.aqTable (BitVec.ofNat 2 seq) cl.ctrMode }))) ∧
    (3 < seq → exec (.pwmSetseq h seq) s = .next (stopped s (encode (.pwmSetseq h seq)) 0x08))

/-- PWM.SETCMPPH, PWM.SETDT, PWM.SETTZSAFE, PWM.ENOUT and PWM.DISOUT write their cluster fields and nothing else
(43_pwm_modulation.md R163, 44_pwm_sequence.md R184, 45_pwm_output.md R190, R191, and its section "Trip zone and output
enable", whose two enable commands the spec supplies from general knowledge, log entry 15). -/
def Obligations.ClusterWrites : Prop :=
  ∀ (s : State) (h : Nat) (p : PwmInst) (cl : Channel), Leg s h p cl →
    (∀ count, exec (.pwmSetcmpph h count) s = .next (returned (withCluster s p
      { cl with cmpaSh := BitVec.ofNat 16 (min count (fullScaleOf cl)) }))) ∧
    (∀ red fed, exec (.pwmSetdt h red fed) s = .next (returned (withCluster s p
      { cl with dbRed := min red (2 ^ s.cfg.dbBits - 1), dbFed := min fed (2 ^ s.cfg.dbBits - 1) }))) ∧
    exec (.pwmSettzsafe h) s = .next (returned (withCluster s p { cl with tzA := safeTripOf cl, tzB := safeTripOf cl })) ∧
    exec (.pwmEnout h) s = .next (returned (withCluster s p { cl with tzOst := false })) ∧
    exec (.pwmDisout h) s = .next (returned (withCluster s p { cl with tzOst := true }))

/-- PWM.SETPASSIVE and PWM.SETOPER write the two shadows of the transition, and the active force too when its load is
Immediate; without the feature they fault UNSUPPORTED (45_pwm_output.md R190, R195, R196, R200). -/
def Obligations.TransitionRequests : Prop :=
  ∀ (s : State) (h : Nat) (p : PwmInst) (cl : Channel), Leg s h p cl →
    let safe : ForcePair := ⟨safeForceOf cl, safeForceOf cl⟩
    (s.cfg.hasSyncTransition = true →
      exec (.pwmSetpassive h) s = .next (returned (withCluster s p
        { cl with csfSh := safe, dbOutSh := .bypass, csf := if cl.csfLoad = .immediate then safe else cl.csf })) ∧
      exec (.pwmSetoper h) s = .next (returned (withCluster s p
        { cl with csfSh := ⟨.off, .off⟩, dbOutSh := .full,
                  csf := if cl.csfLoad = .immediate then ⟨.off, .off⟩ else cl.csf }))) ∧
    (s.cfg.hasSyncTransition = false →
      exec (.pwmSetpassive h) s = .next (stopped s (encode (.pwmSetpassive h)) 0x0A) ∧
      exec (.pwmSetoper h) s = .next (stopped s (encode (.pwmSetoper h)) 0x0A))

/-- PWM.PREPARE takes both load events from the map's entry for the dead-band polarity xor the sequence parity, and loads a
pending force at once when the force load becomes Immediate; without the feature it faults UNSUPPORTED
(45_pwm_output.md R197, R200, 90_conflicts.md C7). -/
def Obligations.PrepareTransition : Prop :=
  ∀ (s : State) (h : Nat) (p : PwmInst) (cl : Channel), Leg s h p cl →
    let e := if (cl.dbPol ^^ p.seq.getLsbD 0) = true then s.cfg.prepMap1 else s.cfg.prepMap0
    (s.cfg.hasSyncTransition = true → exec (.pwmPrepare h) s = .next (returned (withCluster s p
      { cl with dbLoad := e.dbLoad, csfLoad := e.csfLoad, csf := if e.csfLoad = .immediate then cl.csfSh else cl.csf }))) ∧
    (s.cfg.hasSyncTransition = false →
      exec (.pwmPrepare h) s = .next (stopped s (encode (.pwmPrepare h)) 0x0A))

/-- The common checks of the PWM commands, in their order: BAD_HANDLE, UNINIT, UNCONFIGURED (60_exceptions.md R258,
42_pwm_config.md R140). -/
def Obligations.PwmCommonChecks : Prop :=
  ∀ (i : Instr) (s : State) (h : Nat) (need : Setup), pwmTarget i = some (h, need) →
    (s.insts.length ≤ h → exec i s = .next (stopped s (encode i) 0x03)) ∧
    (∀ p, s.insts[h]? = some p → need ≠ .any → p.init = false → exec i s = .next (stopped s (encode i) 0x04)) ∧
    (∀ p, s.insts[h]? = some p → need = .configured → p.init = true → p.conf = false →
      exec i s = .next (stopped s (encode i) 0x05))

/-- What the PWM commands leave unchanged when they answer a next state, a fault-stop included: the guards and so every
payload word, `IE` and the interrupt bookkeeping, the staged parameters, both programs, the other context, every other
instance, every cluster but the instance's own and the one PWM.CONFIG names, and every pin (files 42 to 45, "State
written"). -/
def Obligations.PwmFrame : Prop :=
  ∀ (i : Instr) (s t : State) (h : Nat) (need : Setup), pwmTarget i = some (h, need) → exec i s = .next t →
    t.cfg = s.cfg ∧ t.pstage = s.pstage ∧ t.guards = s.guards ∧ t.sched = s.sched ∧ t.ie = s.ie ∧
    t.irqPend = s.irqPend ∧ t.hiActive = s.hiActive ∧ t.ieAtEntry = s.ieAtEntry ∧ t.loDone = s.loDone ∧
    t.lo.prog = s.lo.prog ∧ t.hi.prog = s.hi.prog ∧
    (s.hiActive = true → t.lo = s.lo) ∧ (s.hiActive = false → t.hi = s.hi) ∧
    (t.faulted = s.faulted ∧ t.faultCause = s.faultCause ∧ t.faultCmd = s.faultCmd ∧ t.faultCtx = s.faultCtx ∨
      t.insts = s.insts ∧ t.chans = s.chans ∧ t.lo = s.lo ∧ t.hi = s.hi) ∧
    (∀ k j, Memory.word t k j = Memory.word s k j) ∧
    (∀ k, k ≠ h → t.insts[k]? = s.insts[k]?) ∧
    (∀ p d, s.insts[h]? = some p → d ≠ p.ch.toNat → (∀ k, i ≠ .pwmConfig k d) → chan? t d = chan? s d) ∧
    (∀ d, (chan? t d).map (fun x => (x.pinA, x.pinB)) = (chan? s d).map (fun x => (x.pinA, x.pinB)))

/-! ## Harness -/

/-- H.BRZ branches when its context's result is zero and goes on otherwise, H.BRA always branches, a target below 0 faults
BAD_PARAM and leaves `PC` at the branch, H.END ends LO or returns from the interrupt; each writes nothing else
(48_harness.md R241 to R243, 60_exceptions.md R255). -/
def Obligations.HarnessLines : Prop :=
  (∀ (s : State) (off : Int), resOf s = 0 → 0 ≤ (pcOf s : Int) + off →
    exec (.hBrz off) s = .next (jumped ((pcOf s : Int) + off).toNat s)) ∧
  (∀ (s : State) (off : Int), resOf s ≠ 0 → exec (.hBrz off) s = .next (returned s)) ∧
  (∀ (s : State) (off : Int), 0 ≤ (pcOf s : Int) + off →
    exec (.hBra off) s = .next (jumped ((pcOf s : Int) + off).toNat s)) ∧
  (∀ (s : State) (off : Int), (pcOf s : Int) + off < 0 →
    exec (.hBra off) s = .next (stopped s (encode (.hBra off)) 0x0B) ∧
    (resOf s = 0 → exec (.hBrz off) s = .next (stopped s (encode (.hBrz off)) 0x0B))) ∧
  (∀ s : State, s.hiActive = false → exec .hEnd s = .next { s with loDone := true }) ∧
  (∀ s : State, s.hiActive = true → exec .hEnd s = .next { s with ie := s.ieAtEntry, hiActive := false })

/-! ## Reset and invariants -/

/-- Reset gives every field the value the spec states, for any parameters and programs (70_reset_and_hazards.md R280); a
payload word reads as its free value (log entry 6). -/
def Obligations.ResetValues : Prop :=
  ∀ (c : Config) (nG nP nC : Nat) (progLo progHi : List Command),
    let s := State.resetOf c nG nP nC progLo progHi
    s.lo = ⟨0, 0, progLo⟩ ∧ s.hi = ⟨0, 0, progHi⟩ ∧ s.ie = c.ieReset ∧ s.irqPend = false ∧ s.hiActive = false ∧
    s.ieAtEntry = false ∧ s.loDone = false ∧ s.faulted = false ∧ s.faultCause = 0 ∧ s.faultCmd = 0 ∧ s.faultCtx = .lo ∧
    s.pstage = c.defaultParams ∧
    s.guards.length = nG ∧ (∀ g ∈ s.guards, g = ⟨false, false, .highToLow, false, false, []⟩) ∧
    s.insts.length = nP ∧ (∀ p ∈ s.insts, p = ⟨false, false, 0, 0, 0⟩) ∧
    s.chans.length = nC ∧ (∀ ch ∈ s.chans, ch =
      { bound := none, run := false, ctrMode := .up, prd := 0, prdSh := 0, ctr := 0, ctrDir := true, phs := 0,
        phsDir := true, cmpa := 0, cmpaSh := 0, cmpLoad := .zero, aqa := ⟨.noAct, .noAct, .noAct, .noAct⟩, aqla := false,
        aqlb := false, csf := ⟨.off, .off⟩, csfSh := ⟨.off, .off⟩, csfLoad := .zero, dbRed := 0, dbFed := 0,
        dbPol := false, dbOut := .bypass, dbOutSh := .bypass, dbLoad := .zero, hiRun := 0, loRun := 2 ^ c.dbBits,
        tzA := .highZ, tzB := .highZ, tzOst := true, pinA := .z, pinB := .z }) ∧
    (∀ h < nG, ∀ i, Memory.word s h i = some (Config.payloadAtReset h i))

/-- The reset state meets the invariant, for any legal parameters; `State.reset` is the reset at the runner defaults with no
program and the processor moving alone, which are the model's choices (10_state.md section 6, 70_reset_and_hazards.md section 1; log
entries 1, 4, 8). -/
def Obligations.ResetMeetsInvariant : Prop :=
  Inv State.reset ∧ State.reset = State.resetOf runnerConfig 4 4 8 [] [] ∧
  ∀ (c : Config) (nG nP nC : Nat) (progLo progHi : List Command), configLegal c = true → nG ≤ 64 → nP ≤ 64 → nC ≤ 65535 →
    Inv (State.resetOf c nG nP nC progLo progHi)

/-- Every step keeps the invariant: the bindings of 10_state.md section 6 (which the spec marks as derived), the register
ranges of R26, R33 and R35, the fault codes of R257, the canonical payload memory, a nonzero period of a running channel. -/
def Obligations.StepKeepsInvariant : Prop :=
  ∀ s t : State, Inv s → step s = .next t → Inv t

/-- From every state that meets the invariant a step answers a next state: no command on ordinary data stops the model
(60_exceptions.md R258; the model's one fault is log entry 11). -/
def Obligations.InvariantStepNeverStops : Prop :=
  ∀ s : State, Inv s → ∃ t, step s = .next t

/-- Every step keeps the payload memory in canonical form (20_memory.md, "Address spaces"; the form is the model's, log
entries 6 and 7). -/
def Obligations.StepKeepsMemoryCanonical : Prop :=
  ∀ s t : State, Memory.wf s = true → step s = .next t → Memory.wf t = true
end

