-- ==== Sys2Proof/Laws/Decode.lean ====
section
/-! SUPPORT. The fields of a command made from fields, and a command made again from its fields (R91): the round trips cite
these instead of unfolding the concatenation. -/

namespace Sys2Proof

theorem opField_command (op h imm : Nat) (opnd : Word) : opField (command op h imm opnd) = BitVec.ofNat 6 op := by
  apply BitVec.eq_of_getLsbD_eq
  intro i hi
  simp only [opField, command, BitVec.getLsbD_extractLsb', BitVec.getLsbD_append]
  simp [hi, show ¬ 58 + i < 32 by omega, show ¬ 58 + i - 32 < 16 by omega, show ¬ 58 + i - 32 - 16 < 4 by omega,
    show ¬ 58 + i - 32 - 16 - 4 < 6 by omega, show 58 + i - 32 - 16 - 4 - 6 = i by omega]

theorem hField_command (op h imm : Nat) (opnd : Word) : hField (command op h imm opnd) = BitVec.ofNat 6 h := by
  apply BitVec.eq_of_getLsbD_eq
  intro i hi
  simp only [hField, command, BitVec.getLsbD_extractLsb', BitVec.getLsbD_append]
  simp [hi, show ¬ 52 + i < 32 by omega, show ¬ 52 + i - 32 < 16 by omega, show ¬ 52 + i - 32 - 16 < 4 by omega,
    show 52 + i - 32 - 16 - 4 = i by omega]

theorem rsvField_command (op h imm : Nat) (opnd : Word) : rsvField (command op h imm opnd) = 0#4 := by
  apply BitVec.eq_of_getLsbD_eq
  intro i hi
  simp only [rsvField, command, BitVec.getLsbD_extractLsb', BitVec.getLsbD_append]
  simp [show ¬ 48 + i < 32 by omega, show ¬ 48 + i - 32 < 16 by omega, show 48 + i - 32 - 16 < 4 by omega]

theorem immField_command (op h imm : Nat) (opnd : Word) : immField (command op h imm opnd) = BitVec.ofNat 16 imm := by
  apply BitVec.eq_of_getLsbD_eq
  intro i hi
  simp only [immField, command, BitVec.getLsbD_extractLsb', BitVec.getLsbD_append]
  simp [hi, show ¬ 32 + i < 32 by omega]

theorem opndField_command (op h imm : Nat) (opnd : Word) : opndField (command op h imm opnd) = opnd := by
  apply BitVec.eq_of_getLsbD_eq
  intro i hi
  simp only [opndField, command, BitVec.getLsbD_extractLsb', BitVec.getLsbD_append]
  simp [hi]

/-- A command is its five fields. -/
theorem fields_append (c : Command) : opField c ++ hField c ++ rsvField c ++ immField c ++ opndField c = c := by
  apply BitVec.eq_of_getLsbD_eq
  intro i hi
  simp only [opField, hField, rsvField, immField, opndField, BitVec.getLsbD_extractLsb', BitVec.getLsbD_append]
  split
  · simp_all
  · split
    · simp_all
    · split
      · rw [show 48 + (i - 32 - 16) = i by omega]; simp; omega
      · split
        · rw [show 52 + (i - 32 - 16 - 4) = i by omega]; simp; omega
        · rw [show 58 + (i - 32 - 16 - 4 - 6) = i by omega]; simp; omega

/-- A command with `RSV` zero is made again by `command` from its fields. -/
theorem command_fields {c : Command} (h : rsvField c = 0#4) :
    command (opField c).toNat (hField c).toNat (immField c).toNat (opndField c) = c := by
  have := fields_append c
  rw [h] at this
  simpa [command] using this

end Sys2Proof
end

