-- ==== Sys2Proof/Laws/State.lean ====
section
/-! SUPPORT. For each operation that updates State, one lemma per field: what the field is after it. Fields an operation
writes are given their new value; the rest are unchanged. -/

namespace Sys2Proof.Machine

variable (s : State)


/-! ### `setIe` -/

@[simp] theorem setIe_cfg (b : Bool) : (setIe b s).cfg = s.cfg := rfl
@[simp] theorem setIe_lo (b : Bool) : (setIe b s).lo = s.lo := rfl
@[simp] theorem setIe_hi (b : Bool) : (setIe b s).hi = s.hi := rfl
@[simp] theorem setIe_ie (b : Bool) : (setIe b s).ie = b := rfl
@[simp] theorem setIe_irqPend (b : Bool) : (setIe b s).irqPend = s.irqPend := rfl
@[simp] theorem setIe_hiActive (b : Bool) : (setIe b s).hiActive = s.hiActive := rfl
@[simp] theorem setIe_ieAtEntry (b : Bool) : (setIe b s).ieAtEntry = s.ieAtEntry := rfl
@[simp] theorem setIe_loDone (b : Bool) : (setIe b s).loDone = s.loDone := rfl
@[simp] theorem setIe_faulted (b : Bool) : (setIe b s).faulted = s.faulted := rfl
@[simp] theorem setIe_faultCause (b : Bool) : (setIe b s).faultCause = s.faultCause := rfl
@[simp] theorem setIe_faultCmd (b : Bool) : (setIe b s).faultCmd = s.faultCmd := rfl
@[simp] theorem setIe_faultCtx (b : Bool) : (setIe b s).faultCtx = s.faultCtx := rfl
@[simp] theorem setIe_pstage (b : Bool) : (setIe b s).pstage = s.pstage := rfl
@[simp] theorem setIe_guards (b : Bool) : (setIe b s).guards = s.guards := rfl
@[simp] theorem setIe_insts (b : Bool) : (setIe b s).insts = s.insts := rfl
@[simp] theorem setIe_chans (b : Bool) : (setIe b s).chans = s.chans := rfl
@[simp] theorem setIe_sched (b : Bool) : (setIe b s).sched = s.sched := rfl

/-! ### `setPstage` -/

@[simp] theorem setPstage_cfg (p : Params) : (setPstage p s).cfg = s.cfg := rfl
@[simp] theorem setPstage_lo (p : Params) : (setPstage p s).lo = s.lo := rfl
@[simp] theorem setPstage_hi (p : Params) : (setPstage p s).hi = s.hi := rfl
@[simp] theorem setPstage_ie (p : Params) : (setPstage p s).ie = s.ie := rfl
@[simp] theorem setPstage_irqPend (p : Params) : (setPstage p s).irqPend = s.irqPend := rfl
@[simp] theorem setPstage_hiActive (p : Params) : (setPstage p s).hiActive = s.hiActive := rfl
@[simp] theorem setPstage_ieAtEntry (p : Params) : (setPstage p s).ieAtEntry = s.ieAtEntry := rfl
@[simp] theorem setPstage_loDone (p : Params) : (setPstage p s).loDone = s.loDone := rfl
@[simp] theorem setPstage_faulted (p : Params) : (setPstage p s).faulted = s.faulted := rfl
@[simp] theorem setPstage_faultCause (p : Params) : (setPstage p s).faultCause = s.faultCause := rfl
@[simp] theorem setPstage_faultCmd (p : Params) : (setPstage p s).faultCmd = s.faultCmd := rfl
@[simp] theorem setPstage_faultCtx (p : Params) : (setPstage p s).faultCtx = s.faultCtx := rfl
@[simp] theorem setPstage_pstage (p : Params) : (setPstage p s).pstage = p := rfl
@[simp] theorem setPstage_guards (p : Params) : (setPstage p s).guards = s.guards := rfl
@[simp] theorem setPstage_insts (p : Params) : (setPstage p s).insts = s.insts := rfl
@[simp] theorem setPstage_chans (p : Params) : (setPstage p s).chans = s.chans := rfl
@[simp] theorem setPstage_sched (p : Params) : (setPstage p s).sched = s.sched := rfl

/-! ### `setGuard` -/

@[simp] theorem setGuard_cfg (h : Nat) (g : Guard) : (setGuard h g s).cfg = s.cfg := rfl
@[simp] theorem setGuard_lo (h : Nat) (g : Guard) : (setGuard h g s).lo = s.lo := rfl
@[simp] theorem setGuard_hi (h : Nat) (g : Guard) : (setGuard h g s).hi = s.hi := rfl
@[simp] theorem setGuard_ie (h : Nat) (g : Guard) : (setGuard h g s).ie = s.ie := rfl
@[simp] theorem setGuard_irqPend (h : Nat) (g : Guard) : (setGuard h g s).irqPend = s.irqPend := rfl
@[simp] theorem setGuard_hiActive (h : Nat) (g : Guard) : (setGuard h g s).hiActive = s.hiActive := rfl
@[simp] theorem setGuard_ieAtEntry (h : Nat) (g : Guard) : (setGuard h g s).ieAtEntry = s.ieAtEntry := rfl
@[simp] theorem setGuard_loDone (h : Nat) (g : Guard) : (setGuard h g s).loDone = s.loDone := rfl
@[simp] theorem setGuard_faulted (h : Nat) (g : Guard) : (setGuard h g s).faulted = s.faulted := rfl
@[simp] theorem setGuard_faultCause (h : Nat) (g : Guard) : (setGuard h g s).faultCause = s.faultCause := rfl
@[simp] theorem setGuard_faultCmd (h : Nat) (g : Guard) : (setGuard h g s).faultCmd = s.faultCmd := rfl
@[simp] theorem setGuard_faultCtx (h : Nat) (g : Guard) : (setGuard h g s).faultCtx = s.faultCtx := rfl
@[simp] theorem setGuard_pstage (h : Nat) (g : Guard) : (setGuard h g s).pstage = s.pstage := rfl
@[simp] theorem setGuard_guards (h : Nat) (g : Guard) : (setGuard h g s).guards = s.guards.set h g := rfl
@[simp] theorem setGuard_insts (h : Nat) (g : Guard) : (setGuard h g s).insts = s.insts := rfl
@[simp] theorem setGuard_chans (h : Nat) (g : Guard) : (setGuard h g s).chans = s.chans := rfl
@[simp] theorem setGuard_sched (h : Nat) (g : Guard) : (setGuard h g s).sched = s.sched := rfl

/-! ### `setInst` -/

@[simp] theorem setInst_cfg (h : Nat) (p : PwmInst) : (setInst h p s).cfg = s.cfg := rfl
@[simp] theorem setInst_lo (h : Nat) (p : PwmInst) : (setInst h p s).lo = s.lo := rfl
@[simp] theorem setInst_hi (h : Nat) (p : PwmInst) : (setInst h p s).hi = s.hi := rfl
@[simp] theorem setInst_ie (h : Nat) (p : PwmInst) : (setInst h p s).ie = s.ie := rfl
@[simp] theorem setInst_irqPend (h : Nat) (p : PwmInst) : (setInst h p s).irqPend = s.irqPend := rfl
@[simp] theorem setInst_hiActive (h : Nat) (p : PwmInst) : (setInst h p s).hiActive = s.hiActive := rfl
@[simp] theorem setInst_ieAtEntry (h : Nat) (p : PwmInst) : (setInst h p s).ieAtEntry = s.ieAtEntry := rfl
@[simp] theorem setInst_loDone (h : Nat) (p : PwmInst) : (setInst h p s).loDone = s.loDone := rfl
@[simp] theorem setInst_faulted (h : Nat) (p : PwmInst) : (setInst h p s).faulted = s.faulted := rfl
@[simp] theorem setInst_faultCause (h : Nat) (p : PwmInst) : (setInst h p s).faultCause = s.faultCause := rfl
@[simp] theorem setInst_faultCmd (h : Nat) (p : PwmInst) : (setInst h p s).faultCmd = s.faultCmd := rfl
@[simp] theorem setInst_faultCtx (h : Nat) (p : PwmInst) : (setInst h p s).faultCtx = s.faultCtx := rfl
@[simp] theorem setInst_pstage (h : Nat) (p : PwmInst) : (setInst h p s).pstage = s.pstage := rfl
@[simp] theorem setInst_guards (h : Nat) (p : PwmInst) : (setInst h p s).guards = s.guards := rfl
@[simp] theorem setInst_insts (h : Nat) (p : PwmInst) : (setInst h p s).insts = s.insts.set h p := rfl
@[simp] theorem setInst_chans (h : Nat) (p : PwmInst) : (setInst h p s).chans = s.chans := rfl
@[simp] theorem setInst_sched (h : Nat) (p : PwmInst) : (setInst h p s).sched = s.sched := rfl

/-! ### `setChan` -/

@[simp] theorem setChan_cfg (c : Nat) (ch : Channel) : (setChan c ch s).cfg = s.cfg := rfl
@[simp] theorem setChan_lo (c : Nat) (ch : Channel) : (setChan c ch s).lo = s.lo := rfl
@[simp] theorem setChan_hi (c : Nat) (ch : Channel) : (setChan c ch s).hi = s.hi := rfl
@[simp] theorem setChan_ie (c : Nat) (ch : Channel) : (setChan c ch s).ie = s.ie := rfl
@[simp] theorem setChan_irqPend (c : Nat) (ch : Channel) : (setChan c ch s).irqPend = s.irqPend := rfl
@[simp] theorem setChan_hiActive (c : Nat) (ch : Channel) : (setChan c ch s).hiActive = s.hiActive := rfl
@[simp] theorem setChan_ieAtEntry (c : Nat) (ch : Channel) : (setChan c ch s).ieAtEntry = s.ieAtEntry := rfl
@[simp] theorem setChan_loDone (c : Nat) (ch : Channel) : (setChan c ch s).loDone = s.loDone := rfl
@[simp] theorem setChan_faulted (c : Nat) (ch : Channel) : (setChan c ch s).faulted = s.faulted := rfl
@[simp] theorem setChan_faultCause (c : Nat) (ch : Channel) : (setChan c ch s).faultCause = s.faultCause := rfl
@[simp] theorem setChan_faultCmd (c : Nat) (ch : Channel) : (setChan c ch s).faultCmd = s.faultCmd := rfl
@[simp] theorem setChan_faultCtx (c : Nat) (ch : Channel) : (setChan c ch s).faultCtx = s.faultCtx := rfl
@[simp] theorem setChan_pstage (c : Nat) (ch : Channel) : (setChan c ch s).pstage = s.pstage := rfl
@[simp] theorem setChan_guards (c : Nat) (ch : Channel) : (setChan c ch s).guards = s.guards := rfl
@[simp] theorem setChan_insts (c : Nat) (ch : Channel) : (setChan c ch s).insts = s.insts := rfl
@[simp] theorem setChan_chans (c : Nat) (ch : Channel) : (setChan c ch s).chans = chanPut s.chans c ch := rfl
@[simp] theorem setChan_sched (c : Nat) (ch : Channel) : (setChan c ch s).sched = s.sched := rfl

/-! ### `faultStop` -/

@[simp] theorem faultStop_cfg (cmd : Command) (cause : Cause) : (faultStop cmd cause s).cfg = s.cfg := rfl
@[simp] theorem faultStop_lo (cmd : Command) (cause : Cause) : (faultStop cmd cause s).lo = s.lo := rfl
@[simp] theorem faultStop_hi (cmd : Command) (cause : Cause) : (faultStop cmd cause s).hi = s.hi := rfl
@[simp] theorem faultStop_ie (cmd : Command) (cause : Cause) : (faultStop cmd cause s).ie = s.ie := rfl
@[simp] theorem faultStop_irqPend (cmd : Command) (cause : Cause) : (faultStop cmd cause s).irqPend = s.irqPend := rfl
@[simp] theorem faultStop_hiActive (cmd : Command) (cause : Cause) : (faultStop cmd cause s).hiActive = s.hiActive := rfl
@[simp] theorem faultStop_ieAtEntry (cmd : Command) (cause : Cause) : (faultStop cmd cause s).ieAtEntry = s.ieAtEntry := rfl
@[simp] theorem faultStop_loDone (cmd : Command) (cause : Cause) : (faultStop cmd cause s).loDone = s.loDone := rfl
@[simp] theorem faultStop_faulted (cmd : Command) (cause : Cause) : (faultStop cmd cause s).faulted = true := rfl
@[simp] theorem faultStop_faultCause (cmd : Command) (cause : Cause) : (faultStop cmd cause s).faultCause = causeCode cause := rfl
@[simp] theorem faultStop_faultCmd (cmd : Command) (cause : Cause) : (faultStop cmd cause s).faultCmd = cmd := rfl
@[simp] theorem faultStop_faultCtx (cmd : Command) (cause : Cause) : (faultStop cmd cause s).faultCtx = issuer s := rfl
@[simp] theorem faultStop_pstage (cmd : Command) (cause : Cause) : (faultStop cmd cause s).pstage = s.pstage := rfl
@[simp] theorem faultStop_guards (cmd : Command) (cause : Cause) : (faultStop cmd cause s).guards = s.guards := rfl
@[simp] theorem faultStop_insts (cmd : Command) (cause : Cause) : (faultStop cmd cause s).insts = s.insts := rfl
@[simp] theorem faultStop_chans (cmd : Command) (cause : Cause) : (faultStop cmd cause s).chans = s.chans := rfl
@[simp] theorem faultStop_sched (cmd : Command) (cause : Cause) : (faultStop cmd cause s).sched = s.sched := rfl

/-! ### `enterInterrupt` -/

@[simp] theorem enterInterrupt_cfg : (enterInterrupt s).cfg = s.cfg := rfl
@[simp] theorem enterInterrupt_lo : (enterInterrupt s).lo = s.lo := rfl
@[simp] theorem enterInterrupt_hi : (enterInterrupt s).hi = { s.hi with pc := 0 } := rfl
@[simp] theorem enterInterrupt_ie : (enterInterrupt s).ie = s.ie := rfl
@[simp] theorem enterInterrupt_irqPend : (enterInterrupt s).irqPend = false := rfl
@[simp] theorem enterInterrupt_hiActive : (enterInterrupt s).hiActive = true := rfl
@[simp] theorem enterInterrupt_ieAtEntry : (enterInterrupt s).ieAtEntry = s.ie := rfl
@[simp] theorem enterInterrupt_loDone : (enterInterrupt s).loDone = s.loDone := rfl
@[simp] theorem enterInterrupt_faulted : (enterInterrupt s).faulted = s.faulted := rfl
@[simp] theorem enterInterrupt_faultCause : (enterInterrupt s).faultCause = s.faultCause := rfl
@[simp] theorem enterInterrupt_faultCmd : (enterInterrupt s).faultCmd = s.faultCmd := rfl
@[simp] theorem enterInterrupt_faultCtx : (enterInterrupt s).faultCtx = s.faultCtx := rfl
@[simp] theorem enterInterrupt_pstage : (enterInterrupt s).pstage = s.pstage := rfl
@[simp] theorem enterInterrupt_guards : (enterInterrupt s).guards = s.guards := rfl
@[simp] theorem enterInterrupt_insts : (enterInterrupt s).insts = s.insts := rfl
@[simp] theorem enterInterrupt_chans : (enterInterrupt s).chans = s.chans := rfl
@[simp] theorem enterInterrupt_sched : (enterInterrupt s).sched = s.sched := rfl

/-! ### `returnInterrupt` -/

@[simp] theorem returnInterrupt_cfg : (returnInterrupt s).cfg = s.cfg := rfl
@[simp] theorem returnInterrupt_lo : (returnInterrupt s).lo = s.lo := rfl
@[simp] theorem returnInterrupt_hi : (returnInterrupt s).hi = s.hi := rfl
@[simp] theorem returnInterrupt_ie : (returnInterrupt s).ie = s.ieAtEntry := rfl
@[simp] theorem returnInterrupt_irqPend : (returnInterrupt s).irqPend = s.irqPend := rfl
@[simp] theorem returnInterrupt_hiActive : (returnInterrupt s).hiActive = false := rfl
@[simp] theorem returnInterrupt_ieAtEntry : (returnInterrupt s).ieAtEntry = s.ieAtEntry := rfl
@[simp] theorem returnInterrupt_loDone : (returnInterrupt s).loDone = s.loDone := rfl
@[simp] theorem returnInterrupt_faulted : (returnInterrupt s).faulted = s.faulted := rfl
@[simp] theorem returnInterrupt_faultCause : (returnInterrupt s).faultCause = s.faultCause := rfl
@[simp] theorem returnInterrupt_faultCmd : (returnInterrupt s).faultCmd = s.faultCmd := rfl
@[simp] theorem returnInterrupt_faultCtx : (returnInterrupt s).faultCtx = s.faultCtx := rfl
@[simp] theorem returnInterrupt_pstage : (returnInterrupt s).pstage = s.pstage := rfl
@[simp] theorem returnInterrupt_guards : (returnInterrupt s).guards = s.guards := rfl
@[simp] theorem returnInterrupt_insts : (returnInterrupt s).insts = s.insts := rfl
@[simp] theorem returnInterrupt_chans : (returnInterrupt s).chans = s.chans := rfl
@[simp] theorem returnInterrupt_sched : (returnInterrupt s).sched = s.sched := rfl

/-! ### `endLo` -/

@[simp] theorem endLo_cfg : (endLo s).cfg = s.cfg := rfl
@[simp] theorem endLo_lo : (endLo s).lo = s.lo := rfl
@[simp] theorem endLo_hi : (endLo s).hi = s.hi := rfl
@[simp] theorem endLo_ie : (endLo s).ie = s.ie := rfl
@[simp] theorem endLo_irqPend : (endLo s).irqPend = s.irqPend := rfl
@[simp] theorem endLo_hiActive : (endLo s).hiActive = s.hiActive := rfl
@[simp] theorem endLo_ieAtEntry : (endLo s).ieAtEntry = s.ieAtEntry := rfl
@[simp] theorem endLo_loDone : (endLo s).loDone = true := rfl
@[simp] theorem endLo_faulted : (endLo s).faulted = s.faulted := rfl
@[simp] theorem endLo_faultCause : (endLo s).faultCause = s.faultCause := rfl
@[simp] theorem endLo_faultCmd : (endLo s).faultCmd = s.faultCmd := rfl
@[simp] theorem endLo_faultCtx : (endLo s).faultCtx = s.faultCtx := rfl
@[simp] theorem endLo_pstage : (endLo s).pstage = s.pstage := rfl
@[simp] theorem endLo_guards : (endLo s).guards = s.guards := rfl
@[simp] theorem endLo_insts : (endLo s).insts = s.insts := rfl
@[simp] theorem endLo_chans : (endLo s).chans = s.chans := rfl
@[simp] theorem endLo_sched : (endLo s).sched = s.sched := rfl

/-! ### `raiseStep` -/

@[simp] theorem raiseStep_cfg : (raiseStep s).cfg = s.cfg := rfl
@[simp] theorem raiseStep_lo : (raiseStep s).lo = s.lo := rfl
@[simp] theorem raiseStep_hi : (raiseStep s).hi = s.hi := rfl
@[simp] theorem raiseStep_ie : (raiseStep s).ie = s.ie := rfl
@[simp] theorem raiseStep_irqPend : (raiseStep s).irqPend = true := rfl
@[simp] theorem raiseStep_hiActive : (raiseStep s).hiActive = s.hiActive := rfl
@[simp] theorem raiseStep_ieAtEntry : (raiseStep s).ieAtEntry = s.ieAtEntry := rfl
@[simp] theorem raiseStep_loDone : (raiseStep s).loDone = s.loDone := rfl
@[simp] theorem raiseStep_faulted : (raiseStep s).faulted = s.faulted := rfl
@[simp] theorem raiseStep_faultCause : (raiseStep s).faultCause = s.faultCause := rfl
@[simp] theorem raiseStep_faultCmd : (raiseStep s).faultCmd = s.faultCmd := rfl
@[simp] theorem raiseStep_faultCtx : (raiseStep s).faultCtx = s.faultCtx := rfl
@[simp] theorem raiseStep_pstage : (raiseStep s).pstage = s.pstage := rfl
@[simp] theorem raiseStep_guards : (raiseStep s).guards = s.guards := rfl
@[simp] theorem raiseStep_insts : (raiseStep s).insts = s.insts := rfl
@[simp] theorem raiseStep_chans : (raiseStep s).chans = s.chans := rfl
@[simp] theorem raiseStep_sched : (raiseStep s).sched = s.sched := rfl

/-! ### `popSched` -/

@[simp] theorem popSched_cfg : (popSched s).cfg = s.cfg := rfl
@[simp] theorem popSched_lo : (popSched s).lo = s.lo := rfl
@[simp] theorem popSched_hi : (popSched s).hi = s.hi := rfl
@[simp] theorem popSched_ie : (popSched s).ie = s.ie := rfl
@[simp] theorem popSched_irqPend : (popSched s).irqPend = s.irqPend := rfl
@[simp] theorem popSched_hiActive : (popSched s).hiActive = s.hiActive := rfl
@[simp] theorem popSched_ieAtEntry : (popSched s).ieAtEntry = s.ieAtEntry := rfl
@[simp] theorem popSched_loDone : (popSched s).loDone = s.loDone := rfl
@[simp] theorem popSched_faulted : (popSched s).faulted = s.faulted := rfl
@[simp] theorem popSched_faultCause : (popSched s).faultCause = s.faultCause := rfl
@[simp] theorem popSched_faultCmd : (popSched s).faultCmd = s.faultCmd := rfl
@[simp] theorem popSched_faultCtx : (popSched s).faultCtx = s.faultCtx := rfl
@[simp] theorem popSched_pstage : (popSched s).pstage = s.pstage := rfl
@[simp] theorem popSched_guards : (popSched s).guards = s.guards := rfl
@[simp] theorem popSched_insts : (popSched s).insts = s.insts := rfl
@[simp] theorem popSched_chans : (popSched s).chans = s.chans := rfl
@[simp] theorem popSched_sched : (popSched s).sched = schedRest s.sched := rfl

/-! ### `setCtx` -/

@[simp] theorem setCtx_cfg (c : Ctx) (x : Context) : (setCtx c x s).cfg = s.cfg := by cases c <;> rfl
@[simp] theorem setCtx_ie (c : Ctx) (x : Context) : (setCtx c x s).ie = s.ie := by cases c <;> rfl
@[simp] theorem setCtx_irqPend (c : Ctx) (x : Context) : (setCtx c x s).irqPend = s.irqPend := by cases c <;> rfl
@[simp] theorem setCtx_hiActive (c : Ctx) (x : Context) : (setCtx c x s).hiActive = s.hiActive := by cases c <;> rfl
@[simp] theorem setCtx_ieAtEntry (c : Ctx) (x : Context) : (setCtx c x s).ieAtEntry = s.ieAtEntry := by cases c <;> rfl
@[simp] theorem setCtx_loDone (c : Ctx) (x : Context) : (setCtx c x s).loDone = s.loDone := by cases c <;> rfl
@[simp] theorem setCtx_faulted (c : Ctx) (x : Context) : (setCtx c x s).faulted = s.faulted := by cases c <;> rfl
@[simp] theorem setCtx_faultCause (c : Ctx) (x : Context) : (setCtx c x s).faultCause = s.faultCause := by cases c <;> rfl
@[simp] theorem setCtx_faultCmd (c : Ctx) (x : Context) : (setCtx c x s).faultCmd = s.faultCmd := by cases c <;> rfl
@[simp] theorem setCtx_faultCtx (c : Ctx) (x : Context) : (setCtx c x s).faultCtx = s.faultCtx := by cases c <;> rfl
@[simp] theorem setCtx_pstage (c : Ctx) (x : Context) : (setCtx c x s).pstage = s.pstage := by cases c <;> rfl
@[simp] theorem setCtx_guards (c : Ctx) (x : Context) : (setCtx c x s).guards = s.guards := by cases c <;> rfl
@[simp] theorem setCtx_insts (c : Ctx) (x : Context) : (setCtx c x s).insts = s.insts := by cases c <;> rfl
@[simp] theorem setCtx_chans (c : Ctx) (x : Context) : (setCtx c x s).chans = s.chans := by cases c <;> rfl
@[simp] theorem setCtx_sched (c : Ctx) (x : Context) : (setCtx c x s).sched = s.sched := by cases c <;> rfl

/-! ### `setRes` -/

@[simp] theorem setRes_cfg (v : Word) : (setRes v s).cfg = s.cfg := setCtx_cfg s _ _
@[simp] theorem setRes_ie (v : Word) : (setRes v s).ie = s.ie := setCtx_ie s _ _
@[simp] theorem setRes_irqPend (v : Word) : (setRes v s).irqPend = s.irqPend := setCtx_irqPend s _ _
@[simp] theorem setRes_hiActive (v : Word) : (setRes v s).hiActive = s.hiActive := setCtx_hiActive s _ _
@[simp] theorem setRes_ieAtEntry (v : Word) : (setRes v s).ieAtEntry = s.ieAtEntry := setCtx_ieAtEntry s _ _
@[simp] theorem setRes_loDone (v : Word) : (setRes v s).loDone = s.loDone := setCtx_loDone s _ _
@[simp] theorem setRes_faulted (v : Word) : (setRes v s).faulted = s.faulted := setCtx_faulted s _ _
@[simp] theorem setRes_faultCause (v : Word) : (setRes v s).faultCause = s.faultCause := setCtx_faultCause s _ _
@[simp] theorem setRes_faultCmd (v : Word) : (setRes v s).faultCmd = s.faultCmd := setCtx_faultCmd s _ _
@[simp] theorem setRes_faultCtx (v : Word) : (setRes v s).faultCtx = s.faultCtx := setCtx_faultCtx s _ _
@[simp] theorem setRes_pstage (v : Word) : (setRes v s).pstage = s.pstage := setCtx_pstage s _ _
@[simp] theorem setRes_guards (v : Word) : (setRes v s).guards = s.guards := setCtx_guards s _ _
@[simp] theorem setRes_insts (v : Word) : (setRes v s).insts = s.insts := setCtx_insts s _ _
@[simp] theorem setRes_chans (v : Word) : (setRes v s).chans = s.chans := setCtx_chans s _ _
@[simp] theorem setRes_sched (v : Word) : (setRes v s).sched = s.sched := setCtx_sched s _ _

/-! ### `setPc` -/

@[simp] theorem setPc_cfg (n : Nat) : (setPc n s).cfg = s.cfg := setCtx_cfg s _ _
@[simp] theorem setPc_ie (n : Nat) : (setPc n s).ie = s.ie := setCtx_ie s _ _
@[simp] theorem setPc_irqPend (n : Nat) : (setPc n s).irqPend = s.irqPend := setCtx_irqPend s _ _
@[simp] theorem setPc_hiActive (n : Nat) : (setPc n s).hiActive = s.hiActive := setCtx_hiActive s _ _
@[simp] theorem setPc_ieAtEntry (n : Nat) : (setPc n s).ieAtEntry = s.ieAtEntry := setCtx_ieAtEntry s _ _
@[simp] theorem setPc_loDone (n : Nat) : (setPc n s).loDone = s.loDone := setCtx_loDone s _ _
@[simp] theorem setPc_faulted (n : Nat) : (setPc n s).faulted = s.faulted := setCtx_faulted s _ _
@[simp] theorem setPc_faultCause (n : Nat) : (setPc n s).faultCause = s.faultCause := setCtx_faultCause s _ _
@[simp] theorem setPc_faultCmd (n : Nat) : (setPc n s).faultCmd = s.faultCmd := setCtx_faultCmd s _ _
@[simp] theorem setPc_faultCtx (n : Nat) : (setPc n s).faultCtx = s.faultCtx := setCtx_faultCtx s _ _
@[simp] theorem setPc_pstage (n : Nat) : (setPc n s).pstage = s.pstage := setCtx_pstage s _ _
@[simp] theorem setPc_guards (n : Nat) : (setPc n s).guards = s.guards := setCtx_guards s _ _
@[simp] theorem setPc_insts (n : Nat) : (setPc n s).insts = s.insts := setCtx_insts s _ _
@[simp] theorem setPc_chans (n : Nat) : (setPc n s).chans = s.chans := setCtx_chans s _ _
@[simp] theorem setPc_sched (n : Nat) : (setPc n s).sched = s.sched := setCtx_sched s _ _

/-! ### `advance` -/

@[simp] theorem advance_cfg : (advance s).cfg = s.cfg := setPc_cfg s _
@[simp] theorem advance_ie : (advance s).ie = s.ie := setPc_ie s _
@[simp] theorem advance_irqPend : (advance s).irqPend = s.irqPend := setPc_irqPend s _
@[simp] theorem advance_hiActive : (advance s).hiActive = s.hiActive := setPc_hiActive s _
@[simp] theorem advance_ieAtEntry : (advance s).ieAtEntry = s.ieAtEntry := setPc_ieAtEntry s _
@[simp] theorem advance_loDone : (advance s).loDone = s.loDone := setPc_loDone s _
@[simp] theorem advance_faulted : (advance s).faulted = s.faulted := setPc_faulted s _
@[simp] theorem advance_faultCause : (advance s).faultCause = s.faultCause := setPc_faultCause s _
@[simp] theorem advance_faultCmd : (advance s).faultCmd = s.faultCmd := setPc_faultCmd s _
@[simp] theorem advance_faultCtx : (advance s).faultCtx = s.faultCtx := setPc_faultCtx s _
@[simp] theorem advance_pstage : (advance s).pstage = s.pstage := setPc_pstage s _
@[simp] theorem advance_guards : (advance s).guards = s.guards := setPc_guards s _
@[simp] theorem advance_insts : (advance s).insts = s.insts := setPc_insts s _
@[simp] theorem advance_chans : (advance s).chans = s.chans := setPc_chans s _
@[simp] theorem advance_sched : (advance s).sched = s.sched := setPc_sched s _

/-! ### `modifyChan`: only the channels may change -/

@[simp] theorem modifyChan_cfg (c : Nat) (f : Channel → Channel) : (modifyChan c f s).cfg = s.cfg := by unfold modifyChan; split <;> rfl
@[simp] theorem modifyChan_lo (c : Nat) (f : Channel → Channel) : (modifyChan c f s).lo = s.lo := by unfold modifyChan; split <;> rfl
@[simp] theorem modifyChan_hi (c : Nat) (f : Channel → Channel) : (modifyChan c f s).hi = s.hi := by unfold modifyChan; split <;> rfl
@[simp] theorem modifyChan_ie (c : Nat) (f : Channel → Channel) : (modifyChan c f s).ie = s.ie := by unfold modifyChan; split <;> rfl
@[simp] theorem modifyChan_irqPend (c : Nat) (f : Channel → Channel) : (modifyChan c f s).irqPend = s.irqPend := by unfold modifyChan; split <;> rfl
@[simp] theorem modifyChan_hiActive (c : Nat) (f : Channel → Channel) : (modifyChan c f s).hiActive = s.hiActive := by unfold modifyChan; split <;> rfl
@[simp] theorem modifyChan_ieAtEntry (c : Nat) (f : Channel → Channel) : (modifyChan c f s).ieAtEntry = s.ieAtEntry := by unfold modifyChan; split <;> rfl
@[simp] theorem modifyChan_loDone (c : Nat) (f : Channel → Channel) : (modifyChan c f s).loDone = s.loDone := by unfold modifyChan; split <;> rfl
@[simp] theorem modifyChan_faulted (c : Nat) (f : Channel → Channel) : (modifyChan c f s).faulted = s.faulted := by unfold modifyChan; split <;> rfl
@[simp] theorem modifyChan_faultCause (c : Nat) (f : Channel → Channel) : (modifyChan c f s).faultCause = s.faultCause := by unfold modifyChan; split <;> rfl
@[simp] theorem modifyChan_faultCmd (c : Nat) (f : Channel → Channel) : (modifyChan c f s).faultCmd = s.faultCmd := by unfold modifyChan; split <;> rfl
@[simp] theorem modifyChan_faultCtx (c : Nat) (f : Channel → Channel) : (modifyChan c f s).faultCtx = s.faultCtx := by unfold modifyChan; split <;> rfl
@[simp] theorem modifyChan_pstage (c : Nat) (f : Channel → Channel) : (modifyChan c f s).pstage = s.pstage := by unfold modifyChan; split <;> rfl
@[simp] theorem modifyChan_guards (c : Nat) (f : Channel → Channel) : (modifyChan c f s).guards = s.guards := by unfold modifyChan; split <;> rfl
@[simp] theorem modifyChan_insts (c : Nat) (f : Channel → Channel) : (modifyChan c f s).insts = s.insts := by unfold modifyChan; split <;> rfl
@[simp] theorem modifyChan_sched (c : Nat) (f : Channel → Channel) : (modifyChan c f s).sched = s.sched := by unfold modifyChan; split <;> rfl

/-! ### `unbind`: only the channels may change -/

@[simp] theorem unbind_cfg (c : Nat) : (unbind c s).cfg = s.cfg := modifyChan_cfg s c _
@[simp] theorem unbind_lo (c : Nat) : (unbind c s).lo = s.lo := modifyChan_lo s c _
@[simp] theorem unbind_hi (c : Nat) : (unbind c s).hi = s.hi := modifyChan_hi s c _
@[simp] theorem unbind_ie (c : Nat) : (unbind c s).ie = s.ie := modifyChan_ie s c _
@[simp] theorem unbind_irqPend (c : Nat) : (unbind c s).irqPend = s.irqPend := modifyChan_irqPend s c _
@[simp] theorem unbind_hiActive (c : Nat) : (unbind c s).hiActive = s.hiActive := modifyChan_hiActive s c _
@[simp] theorem unbind_ieAtEntry (c : Nat) : (unbind c s).ieAtEntry = s.ieAtEntry := modifyChan_ieAtEntry s c _
@[simp] theorem unbind_loDone (c : Nat) : (unbind c s).loDone = s.loDone := modifyChan_loDone s c _
@[simp] theorem unbind_faulted (c : Nat) : (unbind c s).faulted = s.faulted := modifyChan_faulted s c _
@[simp] theorem unbind_faultCause (c : Nat) : (unbind c s).faultCause = s.faultCause := modifyChan_faultCause s c _
@[simp] theorem unbind_faultCmd (c : Nat) : (unbind c s).faultCmd = s.faultCmd := modifyChan_faultCmd s c _
@[simp] theorem unbind_faultCtx (c : Nat) : (unbind c s).faultCtx = s.faultCtx := modifyChan_faultCtx s c _
@[simp] theorem unbind_pstage (c : Nat) : (unbind c s).pstage = s.pstage := modifyChan_pstage s c _
@[simp] theorem unbind_guards (c : Nat) : (unbind c s).guards = s.guards := modifyChan_guards s c _
@[simp] theorem unbind_insts (c : Nat) : (unbind c s).insts = s.insts := modifyChan_insts s c _
@[simp] theorem unbind_sched (c : Nat) : (unbind c s).sched = s.sched := modifyChan_sched s c _

/-! ### `tickStep`: only the channels may change -/

@[simp] theorem tickStep_cfg (c : Nat) : (tickStep c s).cfg = s.cfg := modifyChan_cfg s c _
@[simp] theorem tickStep_lo (c : Nat) : (tickStep c s).lo = s.lo := modifyChan_lo s c _
@[simp] theorem tickStep_hi (c : Nat) : (tickStep c s).hi = s.hi := modifyChan_hi s c _
@[simp] theorem tickStep_ie (c : Nat) : (tickStep c s).ie = s.ie := modifyChan_ie s c _
@[simp] theorem tickStep_irqPend (c : Nat) : (tickStep c s).irqPend = s.irqPend := modifyChan_irqPend s c _
@[simp] theorem tickStep_hiActive (c : Nat) : (tickStep c s).hiActive = s.hiActive := modifyChan_hiActive s c _
@[simp] theorem tickStep_ieAtEntry (c : Nat) : (tickStep c s).ieAtEntry = s.ieAtEntry := modifyChan_ieAtEntry s c _
@[simp] theorem tickStep_loDone (c : Nat) : (tickStep c s).loDone = s.loDone := modifyChan_loDone s c _
@[simp] theorem tickStep_faulted (c : Nat) : (tickStep c s).faulted = s.faulted := modifyChan_faulted s c _
@[simp] theorem tickStep_faultCause (c : Nat) : (tickStep c s).faultCause = s.faultCause := modifyChan_faultCause s c _
@[simp] theorem tickStep_faultCmd (c : Nat) : (tickStep c s).faultCmd = s.faultCmd := modifyChan_faultCmd s c _
@[simp] theorem tickStep_faultCtx (c : Nat) : (tickStep c s).faultCtx = s.faultCtx := modifyChan_faultCtx s c _
@[simp] theorem tickStep_pstage (c : Nat) : (tickStep c s).pstage = s.pstage := modifyChan_pstage s c _
@[simp] theorem tickStep_guards (c : Nat) : (tickStep c s).guards = s.guards := modifyChan_guards s c _
@[simp] theorem tickStep_insts (c : Nat) : (tickStep c s).insts = s.insts := modifyChan_insts s c _
@[simp] theorem tickStep_sched (c : Nat) : (tickStep c s).sched = s.sched := modifyChan_sched s c _

/-! ### `syncStep`: only the channels may change -/

@[simp] theorem syncStep_cfg (c : Nat) : (syncStep c s).cfg = s.cfg := modifyChan_cfg s c _
@[simp] theorem syncStep_lo (c : Nat) : (syncStep c s).lo = s.lo := modifyChan_lo s c _
@[simp] theorem syncStep_hi (c : Nat) : (syncStep c s).hi = s.hi := modifyChan_hi s c _
@[simp] theorem syncStep_ie (c : Nat) : (syncStep c s).ie = s.ie := modifyChan_ie s c _
@[simp] theorem syncStep_irqPend (c : Nat) : (syncStep c s).irqPend = s.irqPend := modifyChan_irqPend s c _
@[simp] theorem syncStep_hiActive (c : Nat) : (syncStep c s).hiActive = s.hiActive := modifyChan_hiActive s c _
@[simp] theorem syncStep_ieAtEntry (c : Nat) : (syncStep c s).ieAtEntry = s.ieAtEntry := modifyChan_ieAtEntry s c _
@[simp] theorem syncStep_loDone (c : Nat) : (syncStep c s).loDone = s.loDone := modifyChan_loDone s c _
@[simp] theorem syncStep_faulted (c : Nat) : (syncStep c s).faulted = s.faulted := modifyChan_faulted s c _
@[simp] theorem syncStep_faultCause (c : Nat) : (syncStep c s).faultCause = s.faultCause := modifyChan_faultCause s c _
@[simp] theorem syncStep_faultCmd (c : Nat) : (syncStep c s).faultCmd = s.faultCmd := modifyChan_faultCmd s c _
@[simp] theorem syncStep_faultCtx (c : Nat) : (syncStep c s).faultCtx = s.faultCtx := modifyChan_faultCtx s c _
@[simp] theorem syncStep_pstage (c : Nat) : (syncStep c s).pstage = s.pstage := modifyChan_pstage s c _
@[simp] theorem syncStep_guards (c : Nat) : (syncStep c s).guards = s.guards := modifyChan_guards s c _
@[simp] theorem syncStep_insts (c : Nat) : (syncStep c s).insts = s.insts := modifyChan_insts s c _
@[simp] theorem syncStep_sched (c : Nat) : (syncStep c s).sched = s.sched := modifyChan_sched s c _

/-! ### `tripStep`: only the channels may change -/

@[simp] theorem tripStep_cfg (c : Nat) : (tripStep c s).cfg = s.cfg := modifyChan_cfg s c _
@[simp] theorem tripStep_lo (c : Nat) : (tripStep c s).lo = s.lo := modifyChan_lo s c _
@[simp] theorem tripStep_hi (c : Nat) : (tripStep c s).hi = s.hi := modifyChan_hi s c _
@[simp] theorem tripStep_ie (c : Nat) : (tripStep c s).ie = s.ie := modifyChan_ie s c _
@[simp] theorem tripStep_irqPend (c : Nat) : (tripStep c s).irqPend = s.irqPend := modifyChan_irqPend s c _
@[simp] theorem tripStep_hiActive (c : Nat) : (tripStep c s).hiActive = s.hiActive := modifyChan_hiActive s c _
@[simp] theorem tripStep_ieAtEntry (c : Nat) : (tripStep c s).ieAtEntry = s.ieAtEntry := modifyChan_ieAtEntry s c _
@[simp] theorem tripStep_loDone (c : Nat) : (tripStep c s).loDone = s.loDone := modifyChan_loDone s c _
@[simp] theorem tripStep_faulted (c : Nat) : (tripStep c s).faulted = s.faulted := modifyChan_faulted s c _
@[simp] theorem tripStep_faultCause (c : Nat) : (tripStep c s).faultCause = s.faultCause := modifyChan_faultCause s c _
@[simp] theorem tripStep_faultCmd (c : Nat) : (tripStep c s).faultCmd = s.faultCmd := modifyChan_faultCmd s c _
@[simp] theorem tripStep_faultCtx (c : Nat) : (tripStep c s).faultCtx = s.faultCtx := modifyChan_faultCtx s c _
@[simp] theorem tripStep_pstage (c : Nat) : (tripStep c s).pstage = s.pstage := modifyChan_pstage s c _
@[simp] theorem tripStep_guards (c : Nat) : (tripStep c s).guards = s.guards := modifyChan_guards s c _
@[simp] theorem tripStep_insts (c : Nat) : (tripStep c s).insts = s.insts := modifyChan_insts s c _
@[simp] theorem tripStep_sched (c : Nat) : (tripStep c s).sched = s.sched := modifyChan_sched s c _

end Sys2Proof.Machine
end

