-- ==== Sys2Proof/Laws/Ops.lean ====
section
/-! SUPPORT. One lemma per shared operation, saying what it does: contexts, banks, payload memory, common checks. -/

namespace Sys2Proof.Machine

/-! ## Contexts -/

@[simp] theorem ctxOf_setCtx_same (c : Ctx) (x : Context) (s : State) : ctxOf (setCtx c x s) c = x := by cases c <;> rfl

theorem ctxOf_setCtx_other {c d : Ctx} (h : d ≠ c) (x : Context) (s : State) : ctxOf (setCtx c x s) d = ctxOf s d := by
  cases c <;> cases d <;> first | rfl | exact absurd rfl h

/-- The issuing context depends on `HI_ACTIVE` alone. -/
theorem issuer_congr {s t : State} (h : t.hiActive = s.hiActive) : issuer t = issuer s := by simp [issuer, h]

@[simp] theorem issuer_setRes (v : Word) (s : State) : issuer (setRes v s) = issuer s := issuer_congr (by simp)

@[simp] theorem issuer_setPc (n : Nat) (s : State) : issuer (setPc n s) = issuer s := issuer_congr (by simp)

@[simp] theorem issuer_advance (s : State) : issuer (advance s) = issuer s := issuer_congr (by simp)

@[simp] theorem issuer_setIe (b : Bool) (s : State) : issuer (setIe b s) = issuer s := issuer_congr (by simp)

@[simp] theorem issuer_setPstage (p : Params) (s : State) : issuer (setPstage p s) = issuer s := issuer_congr (by simp)

@[simp] theorem issuer_setGuard (h : Nat) (g : Guard) (s : State) : issuer (setGuard h g s) = issuer s := issuer_congr (by simp)

@[simp] theorem issuer_setInst (h : Nat) (p : PwmInst) (s : State) : issuer (setInst h p s) = issuer s := issuer_congr (by simp)

@[simp] theorem issuer_setChan (c : Nat) (ch : Channel) (s : State) : issuer (setChan c ch s) = issuer s := issuer_congr (by simp)

@[simp] theorem issuer_unbind (c : Nat) (s : State) : issuer (unbind c s) = issuer s := issuer_congr (by simp)

@[simp] theorem issuer_popSched (s : State) : issuer (popSched s) = issuer s := issuer_congr rfl

/-- A context runs exactly when R251 says so, and then it is the issuing one. -/
theorem running_eq_some {s : State} {c : Ctx} (h : running s = some c) :
    s.faulted = false ∧ issuer s = c ∧ (s.hiActive = true ∨ s.loDone = false) := by
  unfold running at h
  unfold issuer
  cases hf : s.faulted <;> cases hh : s.hiActive <;> cases hl : s.loDone <;> simp_all

/-! ## Banks -/

theorem chan?_zero (s : State) : chan? s 0 = none := rfl

theorem chan?_succ (s : State) (k : Nat) : chan? s (k + 1) = s.chans[k]? := rfl

/-- A channel exists exactly for the ids 1 .. N_CHANNELS (R143). -/
theorem chan?_isSome (s : State) (c : Nat) : (chan? s c).isSome ↔ 1 ≤ c ∧ c ≤ s.chans.length := by
  cases c with
  | zero => simp [chan?_zero]
  | succ k => simp [chan?_succ]

@[simp] theorem chanPut_length (l : List Channel) (c : Nat) (ch : Channel) : (chanPut l c ch).length = l.length := by
  cases c <;> simp [chanPut]

theorem chan?_setChan_same {s : State} {c : Nat} {old : Channel} (h : chan? s c = some old) (ch : Channel) :
    chan? (setChan c ch s) c = some ch := by
  cases c with
  | zero => simp [chan?_zero] at h
  | succ k =>
    have hk : k < s.chans.length := (List.getElem?_eq_some_iff.mp h).1
    simp [chan?, chanAt, chanPut, hk]

theorem chan?_setChan_other {c d : Nat} (h : d ≠ c) (ch : Channel) (s : State) :
    chan? (setChan c ch s) d = chan? s d := by
  cases c with
  | zero => rfl
  | succ k =>
    cases d with
    | zero => rfl
    | succ j =>
      have : k ≠ j := fun e => h (by rw [e])
      simp [chan?, chanAt, chanPut, List.getElem?_set_ne this]

/-- What `modifyChan` leaves at the channel it changes. -/
theorem chan?_modifyChan_same (c : Nat) (f : Channel → Channel) (s : State) :
    chan? (modifyChan c f s) c = (chan? s c).map f := by
  unfold modifyChan
  split
  · next ch h => rw [chan?_setChan_same h, h]; rfl
  · next h => rw [h]; rfl

theorem chan?_modifyChan_other {c d : Nat} (h : d ≠ c) (f : Channel → Channel) (s : State) :
    chan? (modifyChan c f s) d = chan? s d := by
  unfold modifyChan
  split
  · exact chan?_setChan_other h _ s
  · rfl

@[simp] theorem modifyChan_chans_length (c : Nat) (f : Channel → Channel) (s : State) :
    (modifyChan c f s).chans.length = s.chans.length := by
  unfold modifyChan
  split <;> simp

theorem guard_setGuard_same {s : State} {h : Nat} {old : Guard} (hg : s.guards[h]? = some old) (g : Guard) :
    (setGuard h g s).guards[h]? = some g := by
  have : h < s.guards.length := (List.getElem?_eq_some_iff.mp hg).1
  simp [this]

theorem guard_setGuard_other {h k : Nat} (hk : k ≠ h) (g : Guard) (s : State) :
    (setGuard h g s).guards[k]? = s.guards[k]? := by
  simp [List.getElem?_set_ne (Ne.symm hk)]

theorem inst_setInst_same {s : State} {h : Nat} {old : PwmInst} (hp : s.insts[h]? = some old) (p : PwmInst) :
    (setInst h p s).insts[h]? = some p := by
  have : h < s.insts.length := (List.getElem?_eq_some_iff.mp hp).1
  simp [this]

theorem inst_setInst_other {h k : Nat} (hk : k ≠ h) (p : PwmInst) (s : State) :
    (setInst h p s).insts[k]? = s.insts[k]? := by
  simp [List.getElem?_set_ne (Ne.symm hk)]

/-! ## Common checks -/

/-- Everything `setupCheck` can answer (R258). -/
theorem setupCheck_eq_none {need : Setup} {init conf : Bool} :
    setupCheck need init conf = none ↔
      (need ≠ .any → init = true) ∧ (need = .configured → conf = true) := by
  cases need <;> cases init <;> cases conf <;> simp [setupCheck]

/-- A command on a guard whose checks pass does its own work. -/
theorem onGuard_ready {need : Setup} {i : Instr} {h : Nat} {s : State} {body : Guard → Out} {g : Guard}
    (hg : s.guards[h]? = some g) (hs : setupCheck need g.init g.conf = none) :
    onGuard need i h s body = body g := by
  simp [onGuard, hg, hs]

/-- Everything a command on a guard can answer: a fault-stop of its checks, or what its own work answers. -/
theorem onGuard_cases (need : Setup) (i : Instr) (h : Nat) (s : State) (body : Guard → Out) :
    (∃ cause, onGuard need i h s body = raiseFault i cause s) ∨
    (∃ g, s.guards[h]? = some g ∧ setupCheck need g.init g.conf = none ∧ onGuard need i h s body = body g) := by
  unfold onGuard
  split
  · exact .inl ⟨_, rfl⟩
  · next g hg =>
    split
    · next cause _ => exact .inl ⟨cause, rfl⟩
    · next hs => exact .inr ⟨g, hg, hs, rfl⟩

/-- A command on an instance whose checks pass does its own work. -/
theorem onInst_ready {need : Setup} {i : Instr} {h : Nat} {s : State} {body : PwmInst → Out} {p : PwmInst}
    (hp : s.insts[h]? = some p) (hs : setupCheck need p.init p.conf = none) :
    onInst need i h s body = body p := by
  simp [onInst, hp, hs]

/-- Everything a command on an instance can answer. -/
theorem onInst_cases (need : Setup) (i : Instr) (h : Nat) (s : State) (body : PwmInst → Out) :
    (∃ cause, onInst need i h s body = raiseFault i cause s) ∨
    (∃ p, s.insts[h]? = some p ∧ setupCheck need p.init p.conf = none ∧ onInst need i h s body = body p) := by
  unfold onInst
  split
  · exact .inl ⟨_, rfl⟩
  · next p hp =>
    split
    · next cause _ => exact .inl ⟨cause, rfl⟩
    · next hs => exact .inr ⟨p, hp, hs, rfl⟩

/-- A command on a configured instance with a cluster does its own work. -/
theorem onCluster_ready {i : Instr} {h : Nat} {s : State} {body : PwmInst → Channel → Out} {p : PwmInst} {cl : Channel}
    (hp : s.insts[h]? = some p) (hi : p.init = true) (hc : p.conf = true) (hcl : chan? s p.ch.toNat = some cl) :
    onCluster i h s body = body p cl := by
  unfold onCluster
  rw [onInst_ready hp (by simp [setupCheck, hi, hc])]
  simp [hcl]

/-- Everything a command on a cluster can answer. -/
theorem onCluster_cases (i : Instr) (h : Nat) (s : State) (body : PwmInst → Channel → Out) :
    (∃ cause, onCluster i h s body = raiseFault i cause s) ∨
    (∃ p, s.insts[h]? = some p ∧ p.init = true ∧ p.conf = true ∧ chan? s p.ch.toNat = none ∧
      onCluster i h s body = .fault (.noSuchChannel p.ch.toNat)) ∨
    (∃ p cl, s.insts[h]? = some p ∧ p.init = true ∧ p.conf = true ∧ chan? s p.ch.toNat = some cl ∧
      onCluster i h s body = body p cl) := by
  obtain ⟨cause, hf⟩ | ⟨p, hp, hs, hb⟩ := onInst_cases .configured i h s
      (fun p => match chan? s p.ch.toNat with
        | none => .fault (.noSuchChannel p.ch.toNat)
        | some cl => body p cl)
  · exact .inl ⟨cause, hf⟩
  · have hset := setupCheck_eq_none.mp hs
    have hi := hset.1 (by simp)
    have hc := hset.2 rfl
    cases hcl : chan? s p.ch.toNat with
    | none => exact .inr (.inl ⟨p, hp, hi, hc, hcl, by simp only [hcl] at hb; exact hb⟩)
    | some cl => exact .inr (.inr ⟨p, cl, hp, hi, hc, hcl, by simp only [hcl] at hb; exact hb⟩)

end Sys2Proof.Machine
end

