-- ==== Sys2Proof/Laws/Memory.lean ====
section
/-! SUPPORT. The payload memory: read after write, and the canonical form, which every memory operation keeps and the reset
memory has. -/

namespace Sys2Proof.Machine

/-- A read after a write to the same word gives the value written. -/
@[simp] theorem payloadStored_store_same (m : Payload) (i : Nat) (w : Word) : payloadStored (payloadStore m i w) i = some w := by
  induction m with
  | nil => simp [payloadStore, payloadStored]
  | cons e rest ih =>
    obtain ⟨k, v⟩ := e
    unfold payloadStore
    split
    · simp [payloadStored]
    · split
      · simp [payloadStored]
      · next hne => simp [payloadStored, Ne.symm hne, ih]

/-- A write leaves every other word alone. -/
theorem payloadStored_store_other {i j : Nat} (h : j ≠ i) (m : Payload) (w : Word) :
    payloadStored (payloadStore m i w) j = payloadStored m j := by
  induction m with
  | nil => simp [payloadStore, payloadStored, Ne.symm h]
  | cons e rest ih =>
    obtain ⟨k, v⟩ := e
    unfold payloadStore
    split
    · simp [payloadStored, Ne.symm h]
    · split
      · next hik => subst hik; simp [payloadStored, Ne.symm h]
      · simp only [payloadStored, ih]

theorem memRead_memWrite_same (h : Nat) (g : Guard) (i : Nat) (w : Word) : memRead h (memWrite g i w) i = w := by
  simp [memRead, memWrite]

theorem memRead_memWrite_other {i j : Nat} (hne : j ≠ i) (h : Nat) (g : Guard) (w : Word) :
    memRead h (memWrite g i w) j = memRead h g j := by
  simp [memRead, memWrite, payloadStored_store_other hne]

/-- The value of a word depends on the payload alone. -/
theorem memRead_congr {g g' : Guard} (hp : g'.payload = g.payload) (h i : Nat) : memRead h g' i = memRead h g i := by
  simp [memRead, hp]

theorem payloadRising_store {k i : Nat} {m : Payload} (hk : k < i) (hm : payloadRising k m = true) (w : Word) :
    payloadRising k (payloadStore m i w) = true := by
  induction m generalizing k with
  | nil => simp [payloadStore, payloadRising, hk]
  | cons e rest ih =>
    obtain ⟨j, v⟩ := e
    simp only [payloadRising, Bool.and_eq_true, decide_eq_true_eq] at hm
    unfold payloadStore
    split
    · next hij => simp [payloadRising, hk, hij, hm.2]
    · split
      · next hij => subst hij; simp [payloadRising, hk, hm.2]
      · next h1 h2 =>
        have hji : j < i := by omega
        simp [payloadRising, hm.1, ih hji hm.2]

theorem payloadStore_keys (m : Payload) (i : Nat) (w : Word) {words : Nat} (hi : i < words)
    (hm : m.all (fun e => e.1 < words) = true) : (payloadStore m i w).all (fun e => e.1 < words) = true := by
  induction m with
  | nil => simp [payloadStore, hi]
  | cons e rest ih =>
    obtain ⟨k, v⟩ := e
    simp only [List.all_cons, Bool.and_eq_true, decide_eq_true_eq] at hm
    unfold payloadStore
    split
    · simp [hi, hm.1, hm.2]
    · split
      · simp [hi, hm.2]
      · simp [hm.1, ih hm.2]

theorem payloadSorted_store {i : Nat} {m : Payload} (hm : payloadSorted m = true) (w : Word) :
    payloadSorted (payloadStore m i w) = true := by
  cases m with
  | nil => rfl
  | cons e rest =>
    obtain ⟨k, v⟩ := e
    have hr : payloadRising k rest = true := hm
    by_cases hik : i < k
    · simp [payloadStore, hik, payloadSorted, payloadRising, hr]
    · by_cases he : i = k
      · subst he
        simp [payloadStore, payloadSorted, hr]
      · have hki : k < i := by omega
        simp [payloadStore, hik, he, payloadSorted, payloadRising_store hki hr w]

/-- A write below `words` keeps the canonical form. -/
theorem payloadWf_store {words i : Nat} {m : Payload} (hi : i < words) (hm : payloadWf words m = true) (w : Word) :
    payloadWf words (payloadStore m i w) = true := by
  simp only [payloadWf, Bool.and_eq_true] at hm ⊢
  exact ⟨payloadSorted_store hm.1 w, payloadStore_keys m i w hi hm.2⟩

/-- `MemWrite` keeps the canonical form of a guard's payload. -/
theorem payloadWf_memWrite {words i : Nat} {g : Guard} (hi : i < words) (hg : payloadWf words g.payload = true) (w : Word) :
    payloadWf words (memWrite g i w).payload = true := payloadWf_store hi hg w

/-- Writing a guard whose payload is in canonical form keeps the whole memory so. -/
theorem Memory.wf_setGuard {s : State} {h : Nat} {g : Guard} (hs : Memory.wf s = true)
    (hg : payloadWf s.cfg.payloadWords g.payload = true) : Memory.wf (setGuard h g s) = true := by
  simp only [Memory.wf, List.all_eq_true, setGuard_guards, setGuard_cfg] at hs ⊢
  intro x hx
  obtain hx | rfl := List.mem_or_eq_of_mem_set hx
  · exact hs x hx
  · exact hg

/-- The canonical form depends on the guards and the parameters alone. -/
theorem Memory.wf_congr {s t : State} (hg : t.guards = s.guards) (hc : t.cfg = s.cfg) : Memory.wf t = Memory.wf s := by
  simp [Memory.wf, hg, hc]

/-- Reset leaves a memory in canonical form, with nothing listed. -/
theorem Memory.wf_resetOf (c : Config) (g p n : Nat) (lo hi : List Command) :
    Memory.wf (State.resetOf c g p n lo hi) = true := by
  simp only [Memory.wf, State.resetOf, List.all_eq_true]
  intro x hx
  rw [List.eq_of_mem_replicate hx]
  rfl

theorem Memory.wf_reset : Memory.wf State.reset = true := Memory.wf_resetOf _ _ _ _ _ _

end Sys2Proof.Machine
end

