-- ==== Sys2Proof/Laws/PerInstr.lean ====
section
/-! SUPPORT. Statements made per instruction. -/

namespace Sys2Proof.Laws.OpcodeField

/-- The opcode of an instruction (R95). -/
def opcode : Instr → Nat
  | .mgInit _ _ => 0x01
  | .mgConfig _ _ => 0x02
  | .mgBeginw _ => 0x03
  | .mgComplw _ => 0x04
  | .mgBeginr _ => 0x05
  | .mgComplr _ => 0x06
  | .mgPldwr _ _ _ => 0x07
  | .mgPldrd _ _ => 0x08
  | .pwmInit _ _ => 0x10
  | .pwmPdef => 0x11
  | .pwmPset _ _ => 0x12
  | .pwmConfig _ _ => 0x13
  | .pwmSetduty _ _ => 0x14
  | .pwmSetcmpph _ _ => 0x15
  | .pwmSetphase _ _ => 0x16
  | .pwmScaleprd _ _ => 0x17
  | .pwmGetfull _ => 0x18
  | .pwmGetctr _ => 0x19
  | .pwmGetdir _ => 0x1A
  | .pwmSetseq _ _ => 0x1B
  | .pwmGetseq _ => 0x1C
  | .pwmSetdt _ _ _ => 0x1D
  | .pwmSettzsafe _ => 0x1E
  | .pwmEnout _ => 0x1F
  | .pwmDisout _ => 0x20
  | .pwmIsen _ => 0x21
  | .pwmSetpassive _ => 0x22
  | .pwmSetoper _ => 0x23
  | .pwmPrepare _ => 0x24
  | .hBrz _ => 0x3C
  | .hBra _ => 0x3D
  | .hEnd => 0x3E

/-- The encoded command carries the row's opcode in bits 63:58 and zero in the reserved bits 51:48 (R91, R93, R95). -/
def Statement (i : Instr) : Prop := opField (encode i) = BitVec.ofNat 6 (opcode i) ∧ rsvField (encode i) = 0#4

/-- Every encoding is made by `command`, so its opcode and reserved fields are those of a made command. -/
theorem of_command {i : Instr} {h imm : Nat} {opnd : Word} (he : encode i = command (opcode i) h imm opnd) : Statement i :=
  ⟨by rw [he, opField_command], by rw [he, rsvField_command]⟩

theorem mgInit (h size : Nat) : Statement (.mgInit h size) := of_command rfl

theorem mgConfig (h : Nat) (dir : Direction) : Statement (.mgConfig h dir) := of_command rfl

theorem mgBeginw (h : Nat) : Statement (.mgBeginw h) := of_command rfl

theorem mgComplw (h : Nat) : Statement (.mgComplw h) := of_command rfl

theorem mgBeginr (h : Nat) : Statement (.mgBeginr h) := of_command rfl

theorem mgComplr (h : Nat) : Statement (.mgComplr h) := of_command rfl

theorem mgPldwr (h index : Nat) (value : Word) : Statement (.mgPldwr h index value) := of_command rfl

theorem mgPldrd (h index : Nat) : Statement (.mgPldrd h index) := of_command rfl

theorem pwmInit (h size : Nat) : Statement (.pwmInit h size) := of_command rfl

theorem pwmPdef : Statement (.pwmPdef) := of_command rfl

theorem pwmPset (field value : Nat) : Statement (.pwmPset field value) := of_command rfl

theorem pwmConfig (h channel : Nat) : Statement (.pwmConfig h channel) := of_command rfl

theorem pwmSetduty (h : Nat) (duty : Word) : Statement (.pwmSetduty h duty) := of_command rfl

theorem pwmSetcmpph (h count : Nat) : Statement (.pwmSetcmpph h count) := of_command rfl

theorem pwmSetphase (h : Nat) (phase : Word) : Statement (.pwmSetphase h phase) := of_command rfl

theorem pwmScaleprd (h : Nat) (factor : Word) : Statement (.pwmScaleprd h factor) := of_command rfl

theorem pwmGetfull (h : Nat) : Statement (.pwmGetfull h) := of_command rfl

theorem pwmGetctr (h : Nat) : Statement (.pwmGetctr h) := of_command rfl

theorem pwmGetdir (h : Nat) : Statement (.pwmGetdir h) := of_command rfl

theorem pwmSetseq (h seq : Nat) : Statement (.pwmSetseq h seq) := of_command rfl

theorem pwmGetseq (h : Nat) : Statement (.pwmGetseq h) := of_command rfl

theorem pwmSetdt (h red fed : Nat) : Statement (.pwmSetdt h red fed) := of_command rfl

theorem pwmSettzsafe (h : Nat) : Statement (.pwmSettzsafe h) := of_command rfl

theorem pwmEnout (h : Nat) : Statement (.pwmEnout h) := of_command rfl

theorem pwmDisout (h : Nat) : Statement (.pwmDisout h) := of_command rfl

theorem pwmIsen (h : Nat) : Statement (.pwmIsen h) := of_command rfl

theorem pwmSetpassive (h : Nat) : Statement (.pwmSetpassive h) := of_command rfl

theorem pwmSetoper (h : Nat) : Statement (.pwmSetoper h) := of_command rfl

theorem pwmPrepare (h : Nat) : Statement (.pwmPrepare h) := of_command rfl

theorem hBrz (off : Int) : Statement (.hBrz off) := of_command rfl

theorem hBra (off : Int) : Statement (.hBra off) := of_command rfl

theorem hEnd : Statement (.hEnd) := of_command rfl

end Sys2Proof.Laws.OpcodeField
end

