-- ==== Sys2Proof/Laws/Step.lean ====
section
/-! SUPPORT. Which step `step` takes (R250, R251). -/

namespace Sys2Proof.Machine

theorem step_eq (s : State) : step s = eventStep exec (nextEvent s) (popSched s) := rfl

@[simp] theorem entryEnabled_popSched (s : State) : entryEnabled (popSched s) = entryEnabled s := rfl

@[simp] theorem running_popSched (s : State) : running (popSched s) = running s := rfl

@[simp] theorem ctxOf_popSched (s : State) (c : Ctx) : ctxOf (popSched s) c = ctxOf s c := by cases c <;> rfl

/-- The harness and the block together act on the fetched command's one verdict (R99, R240). -/
theorem fetchedStep_eq (run : Instr → State → Out) (c : Command) (s : State) :
    fetchedStep run c s = onVerdict run c (decode c) s := by
  unfold fetchedStep portStep decode
  split <;> rfl

/-- An enabled interrupt is taken. -/
theorem processorStep_entry {run : Instr → State → Out} {s : State} (h : entryEnabled s = true) :
    processorStep run s = .next (enterInterrupt s) := by
  simp [processorStep, h]

/-- Otherwise the running context acts on its next command's verdict. -/
theorem processorStep_fetch {run : Instr → State → Out} {s : State} {ctx : Ctx} {c : Command}
    (he : entryEnabled s = false) (hr : running s = some ctx) (hc : (ctxOf s ctx).prog[(ctxOf s ctx).pc]? = some c) :
    processorStep run s = onVerdict run c (decode c) s := by
  simp [processorStep, he, hr, contextStep, hc, fetchedStep_eq]

/-- Past the end of its program it runs H.END (R244). -/
theorem processorStep_end {run : Instr → State → Out} {s : State} {ctx : Ctx}
    (he : entryEnabled s = false) (hr : running s = some ctx) (hc : (ctxOf s ctx).prog[(ctxOf s ctx).pc]? = none) :
    processorStep run s = run .hEnd s := by
  simp [processorStep, he, hr, contextStep, hc]

/-- A processor with no step loops. -/
theorem processorStep_idle {run : Instr → State → Out} {s : State} (he : entryEnabled s = false) (hr : running s = none) :
    processorStep run s = .next s := by
  simp [processorStep, he, hr]

/-- Everything a processor step can be. -/
theorem processorStep_cases (run : Instr → State → Out) (s : State) :
    (entryEnabled s = true ∧ processorStep run s = .next (enterInterrupt s)) ∨
    (entryEnabled s = false ∧ running s = none ∧ processorStep run s = .next s) ∨
    (∃ ctx, entryEnabled s = false ∧ running s = some ctx ∧
      ((∃ i, processorStep run s = run i s) ∨
       ∃ c e, decode c = .bad e ∧ processorStep run s = .next (faultStop c (decodeCause e) s))) := by
  cases he : entryEnabled s with
  | true => exact .inl ⟨rfl, processorStep_entry he⟩
  | false =>
    cases hr : running s with
    | none => exact .inr (.inl ⟨rfl, rfl, processorStep_idle he hr⟩)
    | some ctx =>
      refine .inr (.inr ⟨ctx, rfl, rfl, ?_⟩)
      cases hc : (ctxOf s ctx).prog[(ctxOf s ctx).pc]? with
      | none => exact .inl ⟨.hEnd, processorStep_end he hr hc⟩
      | some c =>
        rw [processorStep_fetch he hr hc]
        cases hd : decode c with
        | instr i => exact .inl ⟨i, rfl⟩
        | bad e => exact .inr ⟨c, e, hd, rfl⟩

/-- A placed command is the one at its index. -/
theorem placeCommand_get (l : List Command) (n : Nat) (c : Command) : (placeCommand l n c)[n]? = some c := by
  induction n generalizing l with
  | zero => cases l <;> simp [placeCommand]
  | succ n ih => cases l <;> simp [placeCommand, ih]

end Sys2Proof.Machine
end

