-- ==== Sys2Proof/Laws/Runs.lean ====
section
/-! SUPPORT. What a schedule gives (R250, log entry 1): every finite interleaving, every round taken for ever, and the free
unending one; and what a run that comes back to its start is (R270, R272). -/

namespace Sys2Proof

open Machine

/-- The move number `n` of a schedule. -/
def moveAt (c : Schedule) (n : Nat) : Event := schedHead (schedRest^[n] c)

/-! ## Every interleaving -/

/-- Any finite list of moves comes first, whatever comes after it. -/
theorem moveAt_listed (o : Onward) (l : List Event) (n : Nat) (h : n < l.length) :
    moveAt { listed := l, onward := o } n = l[n] := by
  induction l generalizing n with
  | nil => simp at h
  | cons e rest ih =>
    cases n with
    | zero => rfl
    | succ n => exact ih n (by simpa using h)

theorem schedRest_listed (o : Onward) (l : List Event) :
    schedRest^[l.length] { listed := l, onward := o } = { listed := [], onward := o } := by
  induction l with
  | nil => rfl
  | cons e rest ih => exact ih

/-- A round is taken again and again. -/
theorem moveAt_cycle (e : Event) (l : List Event) (n : Nat) :
    moveAt { listed := [], onward := .cycle (e :: l) } (n + (l.length + 1))
      = moveAt { listed := [], onward := .cycle (e :: l) } n := by
  unfold moveAt
  rw [Function.iterate_add_apply, Function.iterate_succ_apply]
  exact congrArg (fun c => schedHead (schedRest^[n] c)) (schedRest_listed _ l)

/-- The free interleaving: each move is unconstrained. -/
theorem moveAt_free (stream k n : Nat) :
    moveAt { listed := [], onward := .free stream k } n = Config.freeEvent stream (k + n) := by
  induction n generalizing k with
  | zero => rfl
  | succ n ih =>
    rw [show k + (n + 1) = (k + 1) + n by omega, ← ih (k + 1)]
    rfl

/-! ## Runs -/

theorem run_add {a b : Nat} {s t : State} (h : Host.Core.run core a s = .next t) :
    Host.Core.run core (a + b) s = Host.Core.run core b t := by
  induction a generalizing s with
  | zero => cases h; simp
  | succ a ih =>
    rw [Nat.succ_add]
    simp only [Host.Core.run] at h ⊢
    split at h
    · next u hu => exact ih h
    · cases h
    · cases h

/-- A run that comes back to its start after `p` steps stands, after any number of steps, where it stood within the first
`p`. -/
theorem run_periodic {p : Nat} {s : State} (h : Host.Core.run core p s = .next s) (n : Nat) :
    Host.Core.run core n s = Host.Core.run core (n % p) s := by
  have hq : ∀ q, Host.Core.run core (p * q) s = .next s := by
    intro q
    induction q with
    | zero => rfl
    | succ q ih => rw [Nat.mul_succ, run_add ih, h]
  conv_lhs => rw [← Nat.div_add_mod n p]
  exact run_add (hq _)

/-- A run that comes back to its start, with LO not done and no fault on the way, is a hang. -/
theorem hangs_of_periodic {p : Nat} {s : State} (hp : 0 < p) (h : Host.Core.run core p s = .next s)
    (hlo : ∀ k < p, ∃ t, Host.Core.run core k s = .next t ∧ t.loDone = false ∧ t.faulted = false) : Hangs s := by
  intro n
  rw [run_periodic h]
  exact hlo _ (Nat.mod_lt n hp)

/-- A run that comes back to its start with the processor's move at it is weakly fair. -/
theorem weaklyFair_of_periodic {p : Nat} {s : State} (hp : 0 < p) (h : Host.Core.run core p s = .next s)
    (hc : nextEvent s = .cpu) : WeaklyFair s := by
  intro n _
  refine ⟨p * n, s, Nat.le_mul_of_pos_left n hp, ?_, hc⟩
  rw [run_periodic h, Nat.mul_mod_right]
  rfl

/-! ## What weak fairness gives (R272) -/

/-- Nothing of the processor differs, but that a request may have come. -/
def SameProcessor (s t : State) : Prop :=
  t.lo = s.lo ∧ t.hi = s.hi ∧ t.ie = s.ie ∧ t.hiActive = s.hiActive ∧ t.loDone = s.loDone ∧ t.faulted = s.faulted
    ∧ (s.irqPend = true → t.irqPend = true)

theorem SameProcessor.trans {s t u : State} (h : SameProcessor s t) (k : SameProcessor t u) : SameProcessor s u := by
  obtain ⟨h1, h2, h3, h4, h5, h6, h7⟩ := h
  obtain ⟨k1, k2, k3, k4, k5, k6, k7⟩ := k
  exact ⟨k1.trans h1, k2.trans h2, k3.trans h3, k4.trans h4, k5.trans h5, k6.trans h6, k7 ∘ h7⟩

/-- A step the processor does not make goes on, and leaves the processor. -/
theorem step_sameProcessor {s : State} (h : nextEvent s ≠ .cpu) : ∃ t, step s = .next t ∧ SameProcessor s t := by
  rw [step_eq]
  cases he : nextEvent s with
  | cpu => exact absurd he h
  | raise => exact ⟨_, rfl, by simp [SameProcessor]⟩
  | trip c => exact ⟨_, rfl, by simp [SameProcessor]⟩
  | sync c => exact ⟨_, rfl, by simp [SameProcessor]⟩
  | tick c => exact ⟨_, rfl, by simp [SameProcessor]⟩

theorem processorEnabled_of_same {s t : State} (h : SameProcessor s t) (hs : processorEnabled s = true) :
    processorEnabled t = true := by
  obtain ⟨-, -, h3, h4, h5, h6, h7⟩ := h
  have hr : running t = running s := by simp [running, h4, h5, h6]
  rw [processorEnabled, Bool.or_eq_true] at hs ⊢
  rcases hs with he | hr'
  · left
    simp only [entryEnabled, Bool.and_eq_true] at he ⊢
    rw [h3, h4, h6]
    exact ⟨⟨⟨h7 he.1.1.1, he.1.1.2⟩, he.1.2⟩, he.2⟩
  · right; rw [hr]; exact hr'

/-- In a weakly fair run an enabled processor comes to its move, with both contexts as they stood: timers and environment
delay it and cannot stop it. -/
theorem weaklyFair_processor_moves {s : State} (h : WeaklyFair s) (hs : processorEnabled s = true) :
    ∃ n t, Host.Core.run core n s = .next t ∧ nextEvent t = .cpu ∧ SameProcessor s t := by
  by_contra hno
  push Not at hno
  have all (n : Nat) : ∃ t, Host.Core.run core n s = .next t ∧ SameProcessor s t := by
    induction n with
    | zero => exact ⟨s, rfl, rfl, rfl, rfl, rfl, rfl, rfl, id⟩
    | succ n ih =>
      obtain ⟨t, ht, hst⟩ := ih
      obtain ⟨u, hu, htu⟩ := step_sameProcessor fun hc => hno n t ht hc hst
      refine ⟨u, ?_, hst.trans htu⟩
      rw [run_add ht]
      simp only [Host.Core.run]
      rw [show core.step t = .next u from hu]
  obtain ⟨m, t, -, hm, hc⟩ := h 0 fun m t _ hm => by
    obtain ⟨u, hu, hsu⟩ := all m
    rw [hu] at hm; cases hm
    exact processorEnabled_of_same hsu hs
  obtain ⟨u, hu, hsu⟩ := all m
  rw [hu] at hm; cases hm
  exact hno m t hu hc hsu

end Sys2Proof
end

