-- ==== Sys2Proof/Laws/Timebase.lean ====
section
/-! SUPPORT. What a tick leaves in each register of its cluster (R223), and what the parts of a tick leave unchanged. -/

namespace Sys2Proof.Machine

variable (c : Config) (ch : Channel)

/-! ## The run counters and the pins are each written by one part of the tick (R217, R219) -/

@[simp] theorem runCounts_bound (b : Bool) : (runCounts c b ch).bound = ch.bound := by cases b <;> rfl
@[simp] theorem runCounts_run (b : Bool) : (runCounts c b ch).run = ch.run := by cases b <;> rfl
@[simp] theorem runCounts_ctrMode (b : Bool) : (runCounts c b ch).ctrMode = ch.ctrMode := by cases b <;> rfl
@[simp] theorem runCounts_prd (b : Bool) : (runCounts c b ch).prd = ch.prd := by cases b <;> rfl
@[simp] theorem runCounts_prdSh (b : Bool) : (runCounts c b ch).prdSh = ch.prdSh := by cases b <;> rfl
@[simp] theorem runCounts_ctr (b : Bool) : (runCounts c b ch).ctr = ch.ctr := by cases b <;> rfl
@[simp] theorem runCounts_ctrDir (b : Bool) : (runCounts c b ch).ctrDir = ch.ctrDir := by cases b <;> rfl
@[simp] theorem runCounts_phs (b : Bool) : (runCounts c b ch).phs = ch.phs := by cases b <;> rfl
@[simp] theorem runCounts_phsDir (b : Bool) : (runCounts c b ch).phsDir = ch.phsDir := by cases b <;> rfl
@[simp] theorem runCounts_cmpa (b : Bool) : (runCounts c b ch).cmpa = ch.cmpa := by cases b <;> rfl
@[simp] theorem runCounts_cmpaSh (b : Bool) : (runCounts c b ch).cmpaSh = ch.cmpaSh := by cases b <;> rfl
@[simp] theorem runCounts_cmpLoad (b : Bool) : (runCounts c b ch).cmpLoad = ch.cmpLoad := by cases b <;> rfl
@[simp] theorem runCounts_aqa (b : Bool) : (runCounts c b ch).aqa = ch.aqa := by cases b <;> rfl
@[simp] theorem runCounts_aqla (b : Bool) : (runCounts c b ch).aqla = ch.aqla := by cases b <;> rfl
@[simp] theorem runCounts_aqlb (b : Bool) : (runCounts c b ch).aqlb = ch.aqlb := by cases b <;> rfl
@[simp] theorem runCounts_csf (b : Bool) : (runCounts c b ch).csf = ch.csf := by cases b <;> rfl
@[simp] theorem runCounts_csfSh (b : Bool) : (runCounts c b ch).csfSh = ch.csfSh := by cases b <;> rfl
@[simp] theorem runCounts_csfLoad (b : Bool) : (runCounts c b ch).csfLoad = ch.csfLoad := by cases b <;> rfl
@[simp] theorem runCounts_dbRed (b : Bool) : (runCounts c b ch).dbRed = ch.dbRed := by cases b <;> rfl
@[simp] theorem runCounts_dbFed (b : Bool) : (runCounts c b ch).dbFed = ch.dbFed := by cases b <;> rfl
@[simp] theorem runCounts_dbPol (b : Bool) : (runCounts c b ch).dbPol = ch.dbPol := by cases b <;> rfl
@[simp] theorem runCounts_dbOut (b : Bool) : (runCounts c b ch).dbOut = ch.dbOut := by cases b <;> rfl
@[simp] theorem runCounts_dbOutSh (b : Bool) : (runCounts c b ch).dbOutSh = ch.dbOutSh := by cases b <;> rfl
@[simp] theorem runCounts_dbLoad (b : Bool) : (runCounts c b ch).dbLoad = ch.dbLoad := by cases b <;> rfl
@[simp] theorem runCounts_tzA (b : Bool) : (runCounts c b ch).tzA = ch.tzA := by cases b <;> rfl
@[simp] theorem runCounts_tzB (b : Bool) : (runCounts c b ch).tzB = ch.tzB := by cases b <;> rfl
@[simp] theorem runCounts_tzOst (b : Bool) : (runCounts c b ch).tzOst = ch.tzOst := by cases b <;> rfl
@[simp] theorem runCounts_pinA (b : Bool) : (runCounts c b ch).pinA = ch.pinA := by cases b <;> rfl
@[simp] theorem runCounts_pinB (b : Bool) : (runCounts c b ch).pinB = ch.pinB := by cases b <;> rfl

@[simp] theorem drivePins_bound (db : Bool × Bool) : (drivePins ch db).bound = ch.bound := by unfold drivePins; split <;> rfl
@[simp] theorem drivePins_run (db : Bool × Bool) : (drivePins ch db).run = ch.run := by unfold drivePins; split <;> rfl
@[simp] theorem drivePins_ctrMode (db : Bool × Bool) : (drivePins ch db).ctrMode = ch.ctrMode := by unfold drivePins; split <;> rfl
@[simp] theorem drivePins_prd (db : Bool × Bool) : (drivePins ch db).prd = ch.prd := by unfold drivePins; split <;> rfl
@[simp] theorem drivePins_prdSh (db : Bool × Bool) : (drivePins ch db).prdSh = ch.prdSh := by unfold drivePins; split <;> rfl
@[simp] theorem drivePins_ctr (db : Bool × Bool) : (drivePins ch db).ctr = ch.ctr := by unfold drivePins; split <;> rfl
@[simp] theorem drivePins_ctrDir (db : Bool × Bool) : (drivePins ch db).ctrDir = ch.ctrDir := by unfold drivePins; split <;> rfl
@[simp] theorem drivePins_phs (db : Bool × Bool) : (drivePins ch db).phs = ch.phs := by unfold drivePins; split <;> rfl
@[simp] theorem drivePins_phsDir (db : Bool × Bool) : (drivePins ch db).phsDir = ch.phsDir := by unfold drivePins; split <;> rfl
@[simp] theorem drivePins_cmpa (db : Bool × Bool) : (drivePins ch db).cmpa = ch.cmpa := by unfold drivePins; split <;> rfl
@[simp] theorem drivePins_cmpaSh (db : Bool × Bool) : (drivePins ch db).cmpaSh = ch.cmpaSh := by unfold drivePins; split <;> rfl
@[simp] theorem drivePins_cmpLoad (db : Bool × Bool) : (drivePins ch db).cmpLoad = ch.cmpLoad := by unfold drivePins; split <;> rfl
@[simp] theorem drivePins_aqa (db : Bool × Bool) : (drivePins ch db).aqa = ch.aqa := by unfold drivePins; split <;> rfl
@[simp] theorem drivePins_aqla (db : Bool × Bool) : (drivePins ch db).aqla = ch.aqla := by unfold drivePins; split <;> rfl
@[simp] theorem drivePins_aqlb (db : Bool × Bool) : (drivePins ch db).aqlb = ch.aqlb := by unfold drivePins; split <;> rfl
@[simp] theorem drivePins_csf (db : Bool × Bool) : (drivePins ch db).csf = ch.csf := by unfold drivePins; split <;> rfl
@[simp] theorem drivePins_csfSh (db : Bool × Bool) : (drivePins ch db).csfSh = ch.csfSh := by unfold drivePins; split <;> rfl
@[simp] theorem drivePins_csfLoad (db : Bool × Bool) : (drivePins ch db).csfLoad = ch.csfLoad := by unfold drivePins; split <;> rfl
@[simp] theorem drivePins_dbRed (db : Bool × Bool) : (drivePins ch db).dbRed = ch.dbRed := by unfold drivePins; split <;> rfl
@[simp] theorem drivePins_dbFed (db : Bool × Bool) : (drivePins ch db).dbFed = ch.dbFed := by unfold drivePins; split <;> rfl
@[simp] theorem drivePins_dbPol (db : Bool × Bool) : (drivePins ch db).dbPol = ch.dbPol := by unfold drivePins; split <;> rfl
@[simp] theorem drivePins_dbOut (db : Bool × Bool) : (drivePins ch db).dbOut = ch.dbOut := by unfold drivePins; split <;> rfl
@[simp] theorem drivePins_dbOutSh (db : Bool × Bool) : (drivePins ch db).dbOutSh = ch.dbOutSh := by unfold drivePins; split <;> rfl
@[simp] theorem drivePins_dbLoad (db : Bool × Bool) : (drivePins ch db).dbLoad = ch.dbLoad := by unfold drivePins; split <;> rfl
@[simp] theorem drivePins_hiRun (db : Bool × Bool) : (drivePins ch db).hiRun = ch.hiRun := by unfold drivePins; split <;> rfl
@[simp] theorem drivePins_loRun (db : Bool × Bool) : (drivePins ch db).loRun = ch.loRun := by unfold drivePins; split <;> rfl
@[simp] theorem drivePins_tzA (db : Bool × Bool) : (drivePins ch db).tzA = ch.tzA := by unfold drivePins; split <;> rfl
@[simp] theorem drivePins_tzB (db : Bool × Bool) : (drivePins ch db).tzB = ch.tzB := by unfold drivePins; split <;> rfl
@[simp] theorem drivePins_tzOst (db : Bool × Bool) : (drivePins ch db).tzOst = ch.tzOst := by unfold drivePins; split <;> rfl

/-! ## Names for the parts of a tick (R211, R212, R214, R216) -/

/-- `CTR'`. -/
def tickCount : Nat := nextCount ch.ctrMode ch.prd.toNat ch.ctr.toNat ch.ctrDir

/-- `DIR'`. -/
def tickDir : Bool := nextDir ch.ctrMode ch.prd.toNat ch.ctr.toNat (tickCount ch)

/-- `ZRO`. -/
def tickZro : Bool := tickCount ch == 0

/-- `PRDE`. -/
def tickPrde : Bool := tickCount ch == ch.prd.toNat

/-- The active compare after the loads. -/
def tickCmpa : Half := if fires ch.cmpLoad (tickZro ch) (tickPrde ch) then ch.cmpaSh else ch.cmpa

/-- The active software force after the loads. -/
def tickCsf : ForcePair := if fires ch.csfLoad (tickZro ch) (tickPrde ch) then ch.csfSh else ch.csf

/-- The AQ latch after the tick's action. -/
def tickAqla : Bool :=
  latchAfter (tickAction ch.ctrMode (tickDir ch) ch.aqa (tickZro ch) (tickPrde ch) (tickCount ch == (tickCmpa ch).toNat)) ch.aqla

/-- The dead-band input, AQ output A. -/
def tickInput : Bool := forced (tickCsf ch).a (tickAqla ch)

/-- The cluster after the counter, the loads and the action qualifier. -/
def tickLatched : Channel :=
  { ch with
    ctr := BitVec.ofNat 16 (tickCount ch), ctrDir := tickDir ch,
    prd := if c.prdLoad = .zero ∧ tickZro ch then ch.prdSh else ch.prd,
    cmpa := tickCmpa ch,
    dbOut := if fires ch.dbLoad (tickZro ch) (tickPrde ch) then ch.dbOutSh else ch.dbOut,
    csf := tickCsf ch, aqla := tickAqla ch }

/-- A tick, from its named parts. -/
theorem tickChannel_eq :
    tickChannel c ch =
      drivePins (runCounts c (tickInput ch) (tickLatched c ch))
        (deadBand (runCounts c (tickInput ch) (tickLatched c ch)) (tickInput ch) (forced (tickCsf ch).b ch.aqlb)) := rfl

/-! ## What a tick leaves -/

@[simp] theorem tickChannel_bound : (tickChannel c ch).bound = ch.bound := by simp [tickChannel_eq, tickLatched]
@[simp] theorem tickChannel_run : (tickChannel c ch).run = ch.run := by simp [tickChannel_eq, tickLatched]
@[simp] theorem tickChannel_ctrMode : (tickChannel c ch).ctrMode = ch.ctrMode := by simp [tickChannel_eq, tickLatched]
@[simp] theorem tickChannel_prdSh : (tickChannel c ch).prdSh = ch.prdSh := by simp [tickChannel_eq, tickLatched]
@[simp] theorem tickChannel_phs : (tickChannel c ch).phs = ch.phs := by simp [tickChannel_eq, tickLatched]
@[simp] theorem tickChannel_phsDir : (tickChannel c ch).phsDir = ch.phsDir := by simp [tickChannel_eq, tickLatched]
@[simp] theorem tickChannel_cmpaSh : (tickChannel c ch).cmpaSh = ch.cmpaSh := by simp [tickChannel_eq, tickLatched]
@[simp] theorem tickChannel_cmpLoad : (tickChannel c ch).cmpLoad = ch.cmpLoad := by simp [tickChannel_eq, tickLatched]
@[simp] theorem tickChannel_aqa : (tickChannel c ch).aqa = ch.aqa := by simp [tickChannel_eq, tickLatched]
@[simp] theorem tickChannel_aqlb : (tickChannel c ch).aqlb = ch.aqlb := by simp [tickChannel_eq, tickLatched]
@[simp] theorem tickChannel_csfSh : (tickChannel c ch).csfSh = ch.csfSh := by simp [tickChannel_eq, tickLatched]
@[simp] theorem tickChannel_csfLoad : (tickChannel c ch).csfLoad = ch.csfLoad := by simp [tickChannel_eq, tickLatched]
@[simp] theorem tickChannel_dbRed : (tickChannel c ch).dbRed = ch.dbRed := by simp [tickChannel_eq, tickLatched]
@[simp] theorem tickChannel_dbFed : (tickChannel c ch).dbFed = ch.dbFed := by simp [tickChannel_eq, tickLatched]
@[simp] theorem tickChannel_dbPol : (tickChannel c ch).dbPol = ch.dbPol := by simp [tickChannel_eq, tickLatched]
@[simp] theorem tickChannel_dbOutSh : (tickChannel c ch).dbOutSh = ch.dbOutSh := by simp [tickChannel_eq, tickLatched]
@[simp] theorem tickChannel_dbLoad : (tickChannel c ch).dbLoad = ch.dbLoad := by simp [tickChannel_eq, tickLatched]
@[simp] theorem tickChannel_tzA : (tickChannel c ch).tzA = ch.tzA := by simp [tickChannel_eq, tickLatched]
@[simp] theorem tickChannel_tzB : (tickChannel c ch).tzB = ch.tzB := by simp [tickChannel_eq, tickLatched]
@[simp] theorem tickChannel_tzOst : (tickChannel c ch).tzOst = ch.tzOst := by simp [tickChannel_eq, tickLatched]
@[simp] theorem tickChannel_ctr : (tickChannel c ch).ctr = BitVec.ofNat 16 (tickCount ch) := by
  simp [tickChannel_eq, tickLatched]
@[simp] theorem tickChannel_ctrDir : (tickChannel c ch).ctrDir = tickDir ch := by
  simp [tickChannel_eq, tickLatched]
@[simp] theorem tickChannel_prd : (tickChannel c ch).prd = if c.prdLoad = .zero ∧ tickZro ch then ch.prdSh else ch.prd := by
  simp [tickChannel_eq, tickLatched]
@[simp] theorem tickChannel_cmpa : (tickChannel c ch).cmpa = tickCmpa ch := by
  simp [tickChannel_eq, tickLatched]
@[simp] theorem tickChannel_csf : (tickChannel c ch).csf = tickCsf ch := by
  simp [tickChannel_eq, tickLatched]
@[simp] theorem tickChannel_dbOut : (tickChannel c ch).dbOut = if fires ch.dbLoad (tickZro ch) (tickPrde ch) then ch.dbOutSh else ch.dbOut := by
  simp [tickChannel_eq, tickLatched]
@[simp] theorem tickChannel_aqla : (tickChannel c ch).aqla = tickAqla ch := by
  simp [tickChannel_eq, tickLatched]

@[simp] theorem tickChannel_hiRun :
    (tickChannel c ch).hiRun = if tickInput ch then min (ch.hiRun + 1) (runMax c) else 0 := by
  rw [tickChannel_eq, drivePins_hiRun]
  cases tickInput ch <;> rfl

@[simp] theorem tickChannel_loRun :
    (tickChannel c ch).loRun = if tickInput ch then 0 else min (ch.loRun + 1) (runMax c) := by
  rw [tickChannel_eq, drivePins_loRun]
  cases tickInput ch <;> rfl

/-- The dead-band outputs of a tick, from the registers the tick leaves (R218). -/
def tickDeadBand : Bool × Bool :=
  deadBand (tickChannel c ch) (tickInput ch) (forced (tickCsf ch).b ch.aqlb)

/-- The dead band reads the mode, the polarity, the delays and the run counters alone. -/
theorem deadBand_congr {x y : Channel} (h1 : x.dbOut = y.dbOut) (h2 : x.dbPol = y.dbPol) (h3 : x.dbRed = y.dbRed)
    (h4 : x.dbFed = y.dbFed) (h5 : x.hiRun = y.hiRun) (h6 : x.loRun = y.loRun) (a b : Bool) :
    deadBand x a b = deadBand y a b := by
  simp [deadBand, redOut, fedOut, h1, h2, h3, h4, h5, h6]

theorem tickDeadBand_eq :
    tickDeadBand c ch =
      deadBand (runCounts c (tickInput ch) (tickLatched c ch)) (tickInput ch) (forced (tickCsf ch).b ch.aqlb) := by
  unfold tickDeadBand
  rw [tickChannel_eq]
  exact deadBand_congr (by simp) (by simp) (by simp) (by simp) (by simp) (by simp) _ _

/-- Pin A of a tick (R219). -/
theorem tickChannel_pinA :
    (tickChannel c ch).pinA =
      if ch.tzOst then tripPin ch.tzA (tickDeadBand c ch).1 else pinOf (tickDeadBand c ch).1 := by
  rw [tickDeadBand_eq, tickChannel_eq]
  simp only [drivePins, runCounts_tzOst, runCounts_tzA]
  show (ite (ch.tzOst = true) _ _ : Channel).pinA = _
  split <;> rfl

/-- Pin B of a tick (R219). -/
theorem tickChannel_pinB :
    (tickChannel c ch).pinB =
      if ch.tzOst then tripPin ch.tzB (tickDeadBand c ch).2 else pinOf (tickDeadBand c ch).2 := by
  rw [tickDeadBand_eq, tickChannel_eq]
  simp only [drivePins, runCounts_tzOst, runCounts_tzB]
  show (ite (ch.tzOst = true) _ _ : Channel).pinB = _
  split <;> rfl

end Sys2Proof.Machine
end

