-- ==== Sys2Proof/Machine/Assembler.lean ====
section
/-! DEFINITION. What the assembler makes of a fraction literal (R102) and of a pseudo-instruction (R103, R245). The block sees
only the words and the commands these give; the text syntax of R101 is not modelled (log entry 23). -/

namespace Sys2Proof.Machine

/-- The nearest integer of `65536 * num / den`, ties away from zero (R102). -/
def roundQ (num : Int) (den : Nat) : Int :=
  let m : Int := (2 * 65536 * num.natAbs + den) / (2 * den)
  if num < 0 then -m else m

/-- The word of the decimal literal `num / den`; the assembler refuses a literal outside the range of Q16.16 (R102). -/
def fractionLiteral (num : Int) (den : Nat) : Option Word :=
  if -32768 * (den : Int) ≤ num ∧ 65536 * num ≤ (32768 * 65536 - 1) * (den : Int) then some (BitVec.ofInt 32 (roundQ num den))
  else none

/-- The seven named forms of PWM.PSET, in the order of their field ids (R103, R26). -/
inductive StagedField where
  | ctrMode
  | period
  | dbRed
  | dbFed
  | dbPol
  | seq
  | cmpLoad
  deriving DecidableEq, Repr

/-- A field's id (R26). -/
def fieldId : StagedField → Nat
  | .ctrMode => 0
  | .period => 1
  | .dbRed => 2
  | .dbFed => 3
  | .dbPol => 4
  | .seq => 5
  | .cmpLoad => 6

/-- `PWM.PSET.<FIELD> v` -/
def pseudoPset (f : StagedField) (v : Nat) : List Instr := [.pwmPset (fieldId f) v]

/-- `PWM.PASSIVE.SYNC p` -/
def pseudoPassiveSync (p : Nat) : List Instr := [.pwmPrepare p, .pwmSetpassive p]

/-- `PWM.OPER.SYNC p` -/
def pseudoOperSync (p : Nat) : List Instr := [.pwmPrepare p, .pwmSetoper p]

/-- `MG.SEND g, v`; the offset counts from the H.BRZ itself (R245). -/
def pseudoSend (g : Nat) (v : Word) : List Instr := [.mgBeginw g, .hBrz 3, .mgPldwr g 0 v, .mgComplw g]

/-- `MG.RECV g` -/
def pseudoRecv (g : Nat) : List Instr := [.mgBeginr g, .hBrz 3, .mgPldrd g 0, .mgComplr g]

end Sys2Proof.Machine
end

