-- ==== Sys2Proof/Tests/Slice0.lean ====
section
/-! SUPPORT. Tests of the model: ill-formed terms, one decoded word per constructor, the spec's own vectors
(95_test_vectors.md) one step each, and for every obligation with hypotheses a concrete state and operands that meet them.
Expected values are the spec's, or hand calculation from its rules. -/

namespace Sys2Proof.Tests

open Machine Spec

/-! ## WellFormed: each check refuses an ill-formed term (R91, R94, R101) -/

theorem test_wf_handle : (Instr.mgBeginw 64).wf = false ∧ (Instr.mgBeginw 63).wf = true := by decide

theorem test_wf_half : (Instr.pwmConfig 0 65536).wf = false ∧ (Instr.pwmConfig 0 65535).wf = true := by decide

theorem test_wf_word : (Instr.mgInit 0 4294967296).wf = false ∧ (Instr.mgInit 0 4294967295).wf = true := by decide

theorem test_wf_offset :
    (Instr.hBra 32768).wf = false ∧ (Instr.hBra (-32769)).wf = false ∧ (Instr.hBra (-32768)).wf = true := by decide

theorem test_wf_counts : (Instr.pwmSetdt 0 65536 0).wf = false ∧ (Instr.pwmSetdt 0 0 65536).wf = false := by decide

/-! ## Decoding: a word for every constructor, written out from R91, R94 and R95: `OP`, `H`, `RSV`, `IMM`, `OPND` -/

theorem test_decode_mgInit :
    decode 0b000001_000010_0000_0000000000000000_00000000000000000000000000010000
      = .instr (.mgInit 2 16) := by decide

theorem test_decode_mgConfig :
    decode 0b000010_000011_0000_0000000000000001_00000000000000000000000000000000
      = .instr (.mgConfig 3 .lowToHigh) := by decide

theorem test_decode_mgBeginw :
    decode 0b000011_000001_0000_0000000000000000_00000000000000000000000000000000
      = .instr (.mgBeginw 1) := by decide

theorem test_decode_mgComplw :
    decode 0b000100_000101_0000_0000000000000000_00000000000000000000000000000000
      = .instr (.mgComplw 5) := by decide

theorem test_decode_mgBeginr :
    decode 0b000101_111110_0000_0000000000000000_00000000000000000000000000000000
      = .instr (.mgBeginr 62) := by decide

theorem test_decode_mgComplr :
    decode 0b000110_100001_0000_0000000000000000_00000000000000000000000000000000
      = .instr (.mgComplr 33) := by decide

theorem test_decode_mgPldwr :
    decode 0b000111_111111_0000_1111111111111110_10000000000000000000000000000001
      = .instr (.mgPldwr 63 65534 0x80000001) := by decide

theorem test_decode_mgPldrd :
    decode 0b001000_000100_0000_1000000000000001_00000000000000000000000000000000
      = .instr (.mgPldrd 4 32769) := by decide

theorem test_decode_pwmInit :
    decode 0b010000_000001_0000_0000000000000000_11111111111111111111111111111111
      = .instr (.pwmInit 1 4294967295) := by decide

theorem test_decode_pwmPdef :
    decode 0b010001_000000_0000_0000000000000000_00000000000000000000000000000000
      = .instr (.pwmPdef) := by decide

theorem test_decode_pwmPset :
    decode 0b010010_000000_0000_0000000000000001_00000000000000000000001111101000
      = .instr (.pwmPset 1 1000) := by decide

theorem test_decode_pwmConfig :
    decode 0b010011_000010_0000_0000000000001000_00000000000000000000000000000000
      = .instr (.pwmConfig 2 8) := by decide

theorem test_decode_pwmSetduty :
    decode 0b010100_000001_0000_0000000000000000_11111111111111111100110011001101
      = .instr (.pwmSetduty 1 0xFFFFCCCD) := by decide

theorem test_decode_pwmSetcmpph :
    decode 0b010101_000010_0000_0000010010110000_00000000000000000000000000000000
      = .instr (.pwmSetcmpph 2 1200) := by decide

theorem test_decode_pwmSetphase :
    decode 0b010110_000011_0000_0000000000000000_00000000000000001100000000000000
      = .instr (.pwmSetphase 3 0xC000) := by decide

theorem test_decode_pwmScaleprd :
    decode 0b010111_000100_0000_0000000000000000_00000000000000011000000000000000
      = .instr (.pwmScaleprd 4 0x18000) := by decide

theorem test_decode_pwmGetfull :
    decode 0b011000_000101_0000_0000000000000000_00000000000000000000000000000000
      = .instr (.pwmGetfull 5) := by decide

theorem test_decode_pwmGetctr :
    decode 0b011001_000110_0000_0000000000000000_00000000000000000000000000000000
      = .instr (.pwmGetctr 6) := by decide

theorem test_decode_pwmGetdir :
    decode 0b011010_000111_0000_0000000000000000_00000000000000000000000000000000
      = .instr (.pwmGetdir 7) := by decide

theorem test_decode_pwmSetseq :
    decode 0b011011_001000_0000_1111111111111111_00000000000000000000000000000000
      = .instr (.pwmSetseq 8 65535) := by decide

theorem test_decode_pwmGetseq :
    decode 0b011100_001001_0000_0000000000000000_00000000000000000000000000000000
      = .instr (.pwmGetseq 9) := by decide

theorem test_decode_pwmSetdt :
    decode 0b011101_001010_0000_0000000000000000_00000000000011000000000000001010
      = .instr (.pwmSetdt 10 10 12) := by decide

theorem test_decode_pwmSettzsafe :
    decode 0b011110_001011_0000_0000000000000000_00000000000000000000000000000000
      = .instr (.pwmSettzsafe 11) := by decide

theorem test_decode_pwmEnout :
    decode 0b011111_001100_0000_0000000000000000_00000000000000000000000000000000
      = .instr (.pwmEnout 12) := by decide

theorem test_decode_pwmDisout :
    decode 0b100000_001101_0000_0000000000000000_00000000000000000000000000000000
      = .instr (.pwmDisout 13) := by decide

theorem test_decode_pwmIsen :
    decode 0b100001_001110_0000_0000000000000000_00000000000000000000000000000000
      = .instr (.pwmIsen 14) := by decide

theorem test_decode_pwmSetpassive :
    decode 0b100010_001111_0000_0000000000000000_00000000000000000000000000000000
      = .instr (.pwmSetpassive 15) := by decide

theorem test_decode_pwmSetoper :
    decode 0b100011_010000_0000_0000000000000000_00000000000000000000000000000000
      = .instr (.pwmSetoper 16) := by decide

theorem test_decode_pwmPrepare :
    decode 0b100100_010001_0000_0000000000000000_00000000000000000000000000000000
      = .instr (.pwmPrepare 17) := by decide

theorem test_decode_hBrz :
    decode 0b111100_000000_0000_0000000000000011_00000000000000000000000000000000
      = .instr (.hBrz 3) := by decide

theorem test_decode_hBra :
    decode 0b111101_000000_0000_1000000000000000_00000000000000000000000000000000
      = .instr (.hBra (-32768)) := by decide

theorem test_decode_hEnd :
    decode 0b111110_000000_0000_0000000000000000_00000000000000000000000000000000
      = .instr (.hEnd) := by decide

/-- The refused words of 95_test_vectors.md 2.1. -/
theorem test_decode_refused :
    decode 0 = .bad .illegalOpcode ∧ decode 0x2400000000000000 = .bad .illegalOpcode
      ∧ decode 0x9400000000000000 = .bad .illegalOpcode ∧ decode 0xFC00000000000000 = .bad .illegalOpcode
      ∧ decodeBlock 0xF800000000000000 = .bad .illegalOpcode := by decide

theorem test_decode_reserved_fields :
    decode 0x0C01000000000000 = .bad .reservedField ∧ decode 0x0C00000100000000 = .bad .reservedField
      ∧ decode 0x0C00000000000001 = .bad .reservedField ∧ decode 0x0800000200000000 = .bad .reservedField
      ∧ decode 0x4410000000000000 = .bad .reservedField ∧ decode 0x4810000100000004 = .bad .reservedField
      ∧ decode 0x5000000100004000 = .bad .reservedField ∧ decode 0xF800000100000000 = .bad .reservedField
      ∧ decode 0xF000000100000001 = .bad .reservedField := by decide

/-- The byte string of R100. -/
theorem test_decode_bytes :
    decodeBytes [0x00, 0x00, 0x10, 0x0C, 0x00, 0x00, 0x00, 0x00] = (.instr (.mgBeginw 1), [])
      ∧ decodeBytes [0x00, 0x00, 0x10] = (.bad .truncated, [0x00, 0x00, 0x10]) := by decide

theorem test_table_word : decodeTableWord 64 0x0C10000000000000 = some (.mgBeginw 1) := by decide

/-- The fraction literals of 95_test_vectors.md 2.1, and one out of range. -/
theorem test_fraction_literals :
    fractionLiteral 25 100 = some 0x4000 ∧ fractionLiteral 15 10 = some 0x18000 ∧ fractionLiteral (-2) 10 = some 0xFFFFCCCD
      ∧ fractionLiteral (-1) 10 = some 0xFFFFE666 ∧ fractionLiteral 6 10 = some 0x999A ∧ fractionLiteral 3 10 = some 0x4CCD
      ∧ fractionLiteral 100 1 = some 0x640000 ∧ fractionLiteral (-1) 1 = some 0xFFFF0000 ∧ fractionLiteral 32768 1 = none := by
  decide

/-! ## A small state -/

/-- The state an outcome goes on in. -/
def after (o : Out) : Option State :=
  match o with
  | .next t => some t
  | .fault _ => none
  | .refused _ => none

/-- A configured LowToHigh guard with one stored word. -/
def guardLh : Guard := { init := true, conf := true, dir := .lowToHigh, ready := false, saved := false, payload := [(0, 7)] }

/-- A configured HighToLow guard holding an item. -/
def guardHl : Guard := { init := true, conf := true, dir := .highToLow, ready := true, saved := false, payload := [] }

/-- A bound guard that is not configured. -/
def guardBound : Guard := { resetGuard with init := true }

/-- Instance 0: symmetric, sequence 1, on channel 1. -/
def symLeg : PwmInst := { init := true, conf := true, ch := 1, nomPrd := 1000, seq := 1 }

/-- Instance 1: sawtooth, sequence 0, on channel 2. -/
def sawLeg : PwmInst := { init := true, conf := true, ch := 2, nomPrd := 1000, seq := 0 }

/-- A bound instance that is not configured. -/
def instBound : PwmInst := { resetInst with init := true }

/-- Channel 1: what PWM.CONFIG with the defaults leaves (R144, 95_test_vectors.md 2.3). -/
def symCluster : Channel :=
  { resetChannel runnerConfig with
    bound := some 0, run := true, ctrMode := .upDown, prd := 1000, prdSh := 1000, aqa := ⟨.set, .clear, .clear, .set⟩,
    dbOut := .full, dbOutSh := .full }

/-- Channel 2: a sawtooth with sequence 0, duty 0. -/
def sawCluster : Channel :=
  { resetChannel runnerConfig with
    bound := some 1, run := true, ctrMode := .up, prd := 1000, prdSh := 1000, cmpa := 1001, cmpaSh := 1001,
    aqa := ⟨.clear, .noAct, .set, .noAct⟩, dbOut := .full, dbOutSh := .full }

/-- Two guards and two legs configured, one of each only bound, one of each untouched. -/
def demo : State :=
  { State.reset with
    guards := [guardLh, guardHl, guardBound, resetGuard], insts := [symLeg, sawLeg, instBound, resetInst],
    chans := symCluster :: sawCluster :: List.replicate 6 (resetChannel runnerConfig) }

/-- The same with HI running. -/
def demoHi : State := { demo with hiActive := true, ieAtEntry := true }

/-- A channel of the small state changed. -/
def withCh1 (cl : Channel) : State :=
  { demo with chans := cl :: sawCluster :: List.replicate 6 (resetChannel runnerConfig) }

/-- The state without the transition feature. -/
def noSync : State := { demo with cfg := { runnerConfig with hasSyncTransition := false } }

/-- The small state with a command as LO's program. -/
def loading (c : Command) : State := { demo with lo := { demo.lo with prog := [c] } }

/-- The small state with moves listed. -/
def moving (l : List Event) : State := { demo with sched := { processorOnly with listed := l } }

/-- What `RES` of the issuing context holds after an instruction. -/
def resAfter (i : Instr) (s : State) : Option Word := (after (exec i s)).map resOf

/-- The fault cause recorded by an instruction, 0 if it completes. -/
def causeAfter (i : Instr) (s : State) : Option (BitVec 8) := (after (exec i s)).map State.faultCause

/-- Guard `h` after an instruction. -/
def guardAfter (i : Instr) (s : State) (h : Nat) : Option Guard := (after (exec i s)).bind fun t => t.guards[h]?

/-- Channel `c` after an instruction. -/
def chanAfter (i : Instr) (s : State) (c : Nat) : Option Channel := (after (exec i s)).bind fun t => chan? t c

/-- `IE` after an instruction. -/
def ieAfter (i : Instr) (s : State) : Option Bool := (after (exec i s)).map State.ie

/-! ## The vectors of 95_test_vectors.md, one step each -/

/-- §6 "null-on-too-small", and success at the object size. -/
theorem test_mgInit : resAfter (.mgInit 3 3) demo = some 0xFFFFFFFF ∧ resAfter (.mgInit 3 4) demo = some 3
    ∧ guardAfter (.mgInit 0 3) demo 0 = some guardLh ∧ causeAfter (.mgInit 4 4) demo = some 0x03 := by decide

/-- 2.2: re-initialisation discards the item and clears the saved mask; the payload is not written. -/
theorem test_mgInit_again :
    guardAfter (.mgInit 0 4) demo 0 = some { resetGuard with init := true, payload := [(0, 7)] } := by decide

theorem test_mgConfig : guardAfter (.mgConfig 2 .lowToHigh) demo 2
    = some { resetGuard with init := true, conf := true, dir := .lowToHigh } := by decide

/-- 2.2 LowToHigh rows 1 and 4: granted with the mask held; refused with the mask given back. -/
theorem test_mgBeginw :
    resAfter (.mgBeginw 0) demo = some 1 ∧ ieAfter (.mgBeginw 0) demo = some false
      ∧ guardAfter (.mgBeginw 0) demo 0 = some { guardLh with saved := true } := by decide

theorem test_mgBeginw_refused :
    resAfter (.mgBeginw 0) { demo with guards := [{ guardLh with ready := true }] } = some 0
      ∧ ieAfter (.mgBeginw 0) { demo with guards := [{ guardLh with ready := true }] } = some true
      ∧ resAfter (.mgBeginw 1) demo = some 0 ∧ ieAfter (.mgBeginw 1) demo = some true := by decide

/-- 2.2: a complete without a begin restores the stale mask; HighToLow leaves `IE`. -/
theorem test_mgComplw : guardAfter (.mgComplw 0) demo 0 = some { guardLh with ready := true }
    ∧ ieAfter (.mgComplw 0) demo = some false ∧ ieAfter (.mgComplw 1) demo = some true
    ∧ resAfter (.mgComplw 0) demo = some 0 := by decide

/-- 2.2 HighToLow rows 1, 4 and 5: refused, granted with the mask held, nested. -/
theorem test_mgBeginr :
    resAfter (.mgBeginr 1) demo = some 1 ∧ ieAfter (.mgBeginr 1) demo = some false
      ∧ guardAfter (.mgBeginr 1) { demo with ie := false } 1 = some { guardHl with saved := false } := by decide

theorem test_mgBeginr_empty :
    resAfter (.mgBeginr 0) demo = some 0 ∧ ieAfter (.mgBeginr 0) demo = some true
      ∧ resAfter (.mgBeginr 1) { demo with guards := [guardLh, { guardHl with ready := false }] } = some 0
      ∧ ieAfter (.mgBeginr 1) { demo with guards := [guardLh, { guardHl with ready := false }] } = some true := by decide

theorem test_mgComplr : guardAfter (.mgComplr 1) demo 1 = some { guardHl with ready := false }
    ∧ ieAfter (.mgComplr 1) demo = some false ∧ ieAfter (.mgComplr 0) demo = some true := by decide

theorem test_mgPldwr : guardAfter (.mgPldwr 0 3 0x1234) demo 0 = some { guardLh with payload := [(0, 7), (3, 0x1234)] }
    ∧ causeAfter (.mgPldwr 0 4 1) demo = some 0x0C := by decide

theorem test_mgPldrd : resAfter (.mgPldrd 0 0) demo = some 7 ∧ causeAfter (.mgPldrd 0 4) demo = some 0x0C := by decide

/-- 2.2: UNINIT before UNCONFIGURED. -/
theorem test_mg_checks : causeAfter (.mgBeginw 3) demo = some 0x04 ∧ causeAfter (.mgBeginw 2) demo = some 0x05 := by decide

theorem test_pwmInit : resAfter (.pwmInit 3 16) demo = some 3 ∧ resAfter (.pwmInit 3 15) demo = some 0xFFFFFFFF
    ∧ causeAfter (.pwmInit 4 16) demo = some 0x03 := by decide

/-- R306: the old channel is unbound and keeps running. -/
theorem test_pwmInit_again : chanAfter (.pwmInit 0 16) demo 1 = some { symCluster with bound := none } := by decide

theorem test_pwmPdef : (after (exec .pwmPdef { demo with pstage := { runnerParams with period := 4 } })).map State.pstage
    = some { ctrMode := .upDown, period := 1000, dbRed := 0, dbFed := 0, dbPol := false, seq := 1, cmpLoad := .zero } := by
  decide

/-- 2.3: the faulting stagings. -/
theorem test_pwmPset_bad :
    causeAfter (.pwmPset 7 0) demo = some 0x0B ∧ causeAfter (.pwmPset 1 0) demo = some 0x0B
      ∧ causeAfter (.pwmPset 1 65536) demo = some 0x0B ∧ causeAfter (.pwmPset 5 4) demo = some 0x0B
      ∧ causeAfter (.pwmPset 6 3) demo = some 0x0B ∧ causeAfter (.pwmPset 0 2) demo = some 0x0B
      ∧ causeAfter (.pwmPset 2 65535) demo = some 0 := by decide

theorem test_pwmPset : (after (exec (.pwmPset 1 4) demo)).map State.pstage = some { runnerParams with period := 4 }
    ∧ (after (exec (.pwmPset 6 2) demo)).map State.pstage = some { runnerParams with cmpLoad := .zeroOrPeriod } := by decide

/-- 2.3: defaults, then `PWM.CONFIG` on a fresh instance; the checks in their order. -/
theorem test_pwmConfig :
    chanAfter (.pwmConfig 2 3) demo 3 = some { symCluster with bound := some 2 }
      ∧ causeAfter (.pwmConfig 2 0) demo = some 0x06 ∧ causeAfter (.pwmConfig 2 9) demo = some 0x06
      ∧ causeAfter (.pwmConfig 2 8) demo = some 0 ∧ causeAfter (.pwmConfig 2 1) demo = some 0x07
      ∧ causeAfter (.pwmConfig 5 0) demo = some 0x03 ∧ causeAfter (.pwmConfig 3 0) demo = some 0x04 := by decide

/-- 2.3: sequence 0 in sawtooth mode puts duty 0 at full scale; 65535 counts of delay saturate at 1023. -/
theorem test_pwmConfig_saw :
    (chanAfter (.pwmConfig 0 2) { demo with
        insts := [symLeg], chans := [symCluster, { sawCluster with bound := none }],
        pstage := { runnerParams with ctrMode := .up, seq := 0, dbRed := 65535 } } 2).map (fun c => (c.cmpaSh, c.dbRed))
      = some (1001, 1023) := by decide

/-- X5 and X7: sequence 1. -/
theorem test_pwmSetduty :
    (chanAfter (.pwmSetduty 0 0x4000) demo 1).map Channel.cmpaSh = some 250
      ∧ (chanAfter (.pwmSetduty 0 0x18000) demo 1).map Channel.cmpaSh = some 1000
      ∧ (chanAfter (.pwmSetduty 0 0xFFFFCCCD) demo 1).map Channel.cmpaSh = some 0
      ∧ (chanAfter (.pwmSetduty 0 0x1999) demo 1).map Channel.cmpaSh = some 99 := by decide

/-- X6 (sequence 0), and the cut to 16 bits at full scale 65536. -/
theorem test_pwmSetduty_even :
    (chanAfter (.pwmSetduty 0 0x4000) { demo with insts := [{ symLeg with seq := 0 }] } 1).map Channel.cmpaSh = some 750
      ∧ (chanAfter (.pwmSetduty 0 0x10000) (withCh1 { symCluster with ctrMode := .up, prdSh := 65535 }) 1).map
        Channel.cmpaSh = some 65535 := by decide

theorem test_pwmSetcmpph : (chanAfter (.pwmSetcmpph 0 1200) demo 1).map Channel.cmpaSh = some 1000
    ∧ (chanAfter (.pwmSetcmpph 1 1200) demo 2).map Channel.cmpaSh = some 1001 := by decide

/-- X9, X10, X11 and SETPHASE 0.6. -/
theorem test_pwmSetphase :
    (chanAfter (.pwmSetphase 0 0x4000) demo 1).map (fun c => (c.phs, c.phsDir)) = some (500, true)
      ∧ (chanAfter (.pwmSetphase 0 0xC000) demo 1).map (fun c => (c.phs, c.phsDir)) = some (500, false)
      ∧ (chanAfter (.pwmSetphase 0 0x10000) demo 1).map (fun c => (c.phs, c.phsDir)) = some (0, true)
      ∧ (chanAfter (.pwmSetphase 0 0x999A) demo 1).map (fun c => (c.phs, c.phsDir)) = some (799, false) := by decide

theorem test_pwmSetphase_saw :
    (chanAfter (.pwmSetphase 1 0x4000) demo 2).map (fun c => (c.phs, c.phsDir)) = some (750, true)
      ∧ (chanAfter (.pwmSetphase 1 0) demo 2).map (fun c => (c.phs, c.phsDir)) = some (0, true) := by decide

/-- X12 to X15. -/
theorem test_pwmScaleprd :
    (chanAfter (.pwmScaleprd 0 0x18000) demo 1).map (fun c => (c.prdSh, c.prd)) = some (1500, 1000)
      ∧ (chanAfter (.pwmScaleprd 0 0x21) demo 1).map Channel.prdSh = some 1
      ∧ (chanAfter (.pwmScaleprd 0 0x640000) demo 1).map Channel.prdSh = some 65535
      ∧ causeAfter (.pwmScaleprd 0 0) demo = some 0x09 ∧ causeAfter (.pwmScaleprd 0 0xFFFF0000) demo = some 0x09 := by decide

theorem test_pwmScaleprd_saw : (chanAfter (.pwmScaleprd 1 0x8000) demo 2).map Channel.prdSh = some 499 := by decide

theorem test_pwmGetfull : resAfter (.pwmGetfull 0) demo = some 1000 ∧ resAfter (.pwmGetfull 1) demo = some 1001
    ∧ resAfter (.pwmGetfull 0) (withCh1 { symCluster with ctrMode := .up, prdSh := 65535 }) = some 65536 := by decide

theorem test_pwmGetctr : resAfter (.pwmGetctr 0) (withCh1 { symCluster with ctr := 77 }) = some 77 := by decide

theorem test_pwmGetdir : resAfter (.pwmGetdir 0) demo = some 1
    ∧ resAfter (.pwmGetdir 0) (withCh1 { symCluster with ctrDir := false }) = some 0 := by decide

theorem test_pwmSetseq :
    (chanAfter (.pwmSetseq 0 2) demo 1).map Channel.aqa = some ⟨.noAct, .noAct, .set, .clear⟩
      ∧ (after (exec (.pwmSetseq 0 2) demo)).map (fun t => t.insts.map PwmInst.seq) = some [2, 0, 0, 0]
      ∧ causeAfter (.pwmSetseq 0 4) demo = some 0x08 ∧ causeAfter (.pwmSetseq 0 65535) demo = some 0x08
      ∧ (after (exec (.pwmSetseq 0 4) demo)).map State.insts = some demo.insts := by decide

theorem test_pwmGetseq : resAfter (.pwmGetseq 0) demo = some 1 ∧ resAfter (.pwmGetseq 1) demo = some 0 := by decide

theorem test_pwmSetdt : (chanAfter (.pwmSetdt 0 10 12) demo 1).map (fun c => (c.dbRed, c.dbFed)) = some (10, 12)
    ∧ (chanAfter (.pwmSetdt 0 2000 2000) demo 1).map (fun c => (c.dbRed, c.dbFed)) = some (1023, 1023) := by decide

theorem test_pwmSettzsafe : (chanAfter (.pwmSettzsafe 0) demo 1).map (fun c => (c.tzA, c.tzB)) = some (.forceLow, .forceLow)
    ∧ (chanAfter (.pwmSettzsafe 0) (withCh1 { symCluster with dbPol := true }) 1).map (fun c => (c.tzA, c.tzB))
      = some (.forceHigh, .forceHigh) := by decide

theorem test_pwmEnout : (chanAfter (.pwmEnout 0) demo 1).map Channel.tzOst = some false := by decide

theorem test_pwmDisout : (chanAfter (.pwmDisout 0) (withCh1 { symCluster with tzOst := false }) 1).map Channel.tzOst
    = some true := by decide

theorem test_pwmIsen : resAfter (.pwmIsen 0) demo = some 0
    ∧ resAfter (.pwmIsen 0) (withCh1 { symCluster with tzOst := false }) = some 1 := by decide

theorem test_pwmSetpassive :
    chanAfter (.pwmSetpassive 0) demo 1
        = some { symCluster with csfSh := ⟨.forceLow, .forceLow⟩, dbOutSh := .bypass }
      ∧ (chanAfter (.pwmSetpassive 0) (withCh1 { symCluster with csfLoad := .immediate }) 1).map Channel.csf
        = some ⟨.forceLow, .forceLow⟩ := by decide

theorem test_pwmSetoper :
    chanAfter (.pwmSetoper 0) (withCh1 { symCluster with csfSh := ⟨.forceLow, .forceLow⟩, dbOutSh := .bypass }) 1
      = some symCluster ∧ causeAfter (.pwmSetoper 0) noSync = some 0x0A := by decide

/-- The table of 2.6. -/
theorem test_pwmPrepare :
    (chanAfter (.pwmPrepare 0) demo 1).map (fun c => (c.dbLoad, c.csfLoad)) = some (.zeroOrPeriod, .zeroOrPeriod)
      ∧ (chanAfter (.pwmPrepare 0) (withCh1 { symCluster with dbPol := true }) 1).map (fun c => (c.dbLoad, c.csfLoad))
        = some (.zero, .zero)
      ∧ causeAfter (.pwmPrepare 2) noSync = some 0x05 ∧ causeAfter (.pwmPrepare 0) noSync = some 0x0A := by decide

/-- 2.8: at PC 3. -/
theorem test_hBrz :
    (after (exec (.hBrz 3) { demo with lo := ⟨0, 3, []⟩ })).map (fun t => t.lo.pc) = some 6
      ∧ (after (exec (.hBrz 3) { demo with lo := ⟨1, 3, []⟩ })).map (fun t => t.lo.pc) = some 4
      ∧ causeAfter (.hBrz (-2)) { demo with lo := ⟨0, 1, []⟩ } = some 0x0B
      ∧ causeAfter (.hBrz (-2)) { demo with lo := ⟨1, 1, []⟩ } = some 0 := by decide

theorem test_hBra : (after (exec (.hBra (-5)) { demo with lo := ⟨0, 5, []⟩ })).map (fun t => t.lo.pc) = some 0 := by decide

/-- LO is done, HI returns from the interrupt. -/
theorem test_hEnd : (after (exec .hEnd demo)).map State.loDone = some true
    ∧ (after (exec .hEnd { demoHi with ie := false })).map (fun t => (t.ie, t.hiActive)) = some (true, false) := by decide

/-- 2.9: a fault in HI. -/
theorem test_fault_in_hi :
    (after (exec (.pwmSetseq 0 4) demoHi)).map (fun t => (t.faulted, t.faultCause, t.faultCmd, t.faultCtx, t.hiActive))
      = some (true, 0x08, 0x6C00000400000000, .hi, true) := by decide

/-- 2.9: entry, and none while masked. -/
theorem test_interrupt_entry :
    (after (step { demo with irqPend := true })).map (fun t => (t.hiActive, t.irqPend, t.ieAtEntry, t.hi.pc))
        = some (true, false, true, 0)
      ∧ (after (step { demo with irqPend := true, ie := false })).map (fun t => (t.hiActive, t.irqPend, t.loDone))
        = some (false, true, true) := by decide

/-- 2.1: reserved fields are checked before the handle; 2.10: a first `MG.BEGINW 0` is UNINIT. -/
theorem test_step_faults :
    (after (step (loading 0x0C41000000000000))).map State.faultCause = some 0x02
      ∧ (after (step (State.reset.withFetchWord 64 0x0C00000000000000))).map State.faultCause = some 0x04 := by decide

/-- 2.7: counter stepping from above the period (R224), and the turn at the period. -/
theorem test_counter :
    nextCount .upDown 4 10 true = 9 ∧ nextDir .upDown 4 10 9 = false ∧ nextCount .up 4 10 true = 0
      ∧ nextCount .upDown 3 2 true = 3 ∧ nextDir .upDown 3 2 3 = false ∧ nextDir .upDown 3 1 0 = true := by decide

/-- Tick 10 of the trace of R225: the falling edge with a delay of 1. -/
theorem test_trace_tick :
    let ch := { symCluster with prd := 4, prdSh := 4, ctr := 1, cmpa := 2, cmpaSh := 2, dbRed := 1, dbFed := 1,
                                aqla := true, hiRun := 4, loRun := 0, tzOst := false, pinA := .high, pinB := .low }
    let t := tickChannel runnerConfig ch
    (t.ctr, t.aqla, t.hiRun, t.loRun, t.pinA, t.pinB) = (2, false, 0, 1, .low, .low) := by decide

/-- 2.7: sync with a reverse phase; the next tick counts down. -/
theorem test_sync :
    let t := syncChannel { symCluster with phs := 500, phsDir := false }
    (t.ctr, t.ctrDir, (tickChannel runnerConfig t).ctr, (tickChannel runnerConfig t).ctrDir) = (500, false, 499, false) := by
  decide

/-- 2.7, the shoot-through vector, tick 3: both pins low with active-low outputs. -/
theorem test_shoot_through :
    let ch := { symCluster with prd := 4, prdSh := 4, ctr := 1, cmpa := 2, cmpaSh := 2, dbPol := true, dbOut := .bypass,
                                dbOutSh := .bypass, aqla := true, tzOst := false, csfLoad := .period }
    let t := tickChannel runnerConfig ch
    (t.ctr, t.aqla, t.pinA, t.pinB, overlap t) = (2, false, .low, .low, true) := by decide

/-- A table R182 refuses for each of its points: the compare actions by parity in sawtooth mode, a compare action that is not
set or clear, no forced zero, and a toggle at a boundary. The runner default is admitted. -/
theorem test_aqTableLegal :
    aqTableLegal runnerAqTable = true
      ∧ aqTableLegal { runnerAqTable with seq0.sawtooth.cau := .clear } = false
      ∧ aqTableLegal { runnerAqTable with seq3.sawtooth.cau := .toggle } = false
      ∧ aqTableLegal { runnerAqTable with seq2.sawtooth.cau := .noAct } = false
      ∧ aqTableLegal { runnerAqTable with seq1.sawtooth.zro := .noAct } = false
      ∧ aqTableLegal { runnerAqTable with seq0.upDown.zro := .toggle } = false
      ∧ aqTableLegal { runnerAqTable with seq1.upDown.prd := .toggle } = false := by decide

/-! ## Unending runs (R250, R270, R272) -/

/-- LO has a command, HI's program is empty, and a request is raised after every return: entry, return, raise, for ever. -/
def starved : State :=
  { loading 0x4400000000000000 with
    irqPend := true, ieAtEntry := true, sched := { listed := [], onward := .cycle [.cpu, .cpu, .raise] } }

theorem test_starved_round : Host.Core.run core 3 starved = .next starved := rfl

/-- R272: "with an unending stream of requests LO may be starved, and such a run is a hang", under weak fairness too. -/
theorem test_starved_hangs : Hangs starved ∧ WeaklyFair starved := by
  refine ⟨hangs_of_periodic (p := 3) (by omega) test_starved_round ?_, weaklyFair_of_periodic (p := 3) (by omega)
    test_starved_round rfl⟩
  intro k hk
  interval_cases k <;> exact ⟨_, rfl, rfl, rfl⟩

/-- R272: no fairness is imposed on whose step comes: requests raised for ever leave LO where it is, unfairly. -/
def unfair : State := { loading 0x4400000000000000 with irqPend := true, sched := { listed := [], onward := .cycle [.raise] } }

theorem test_unfair_round : Host.Core.run core 1 unfair = .next unfair := rfl

theorem test_unfair_hangs : Hangs unfair ∧ ¬ WeaklyFair unfair := by
  have all (n : Nat) : Host.Core.run core n unfair = .next unfair := by
    rw [run_periodic test_unfair_round, Nat.mod_one]; rfl
  refine ⟨fun n => ⟨_, all n, rfl, rfl⟩, fun h => ?_⟩
  obtain ⟨m, t, -, hm, ht⟩ := h 0 fun m t _ hm => by
    rw [all m] at hm; cases hm; rfl
  rw [all m] at hm
  cases hm
  cases ht

/-- R270: the run from `demo` ends at its first state with LO done, not before and not at a later one. -/
theorem test_ends : (∃ t, EndsAt 1 demo t) ∧ ¬ ∃ t, EndsAt 2 demo t := by
  refine ⟨⟨_, rfl, rfl, fun k hk u hu => ?_⟩, fun ⟨_, _, _, h⟩ => ?_⟩
  · obtain rfl : k = 0 := by omega
    cases hu; rfl
  · exact absurd (h 1 (by omega) _ rfl) (by decide)

/-- R270: a fault outcome. -/
theorem test_faults : ∃ t, FaultsAt 1 (loading 0) t := by
  refine ⟨_, rfl, rfl, fun k hk u hu => ?_⟩
  obtain rfl : k = 0 := by omega
  cases hu; exact ⟨rfl, rfl⟩

/-! ## Witnesses: for each obligation, states and operands that meet its hypotheses -/

/-- An opcode's smallest and largest operands. -/
theorem test_witness_DecodeOfEncode :
    (Instr.mgInit 0 0).wf = true ∧ (Instr.mgPldwr 63 65535 0xFFFFFFFF).wf = true ∧ (Instr.pwmSetdt 63 65535 65535).wf = true
      ∧ (Instr.pwmPset 65535 4294967295).wf = true ∧ (Instr.hBrz (-32768)).wf = true ∧ (Instr.hBra 32767).wf = true := by
  decide

theorem test_witness_EncodeOfDecode : decode 0x1FF0FFFFFFFFFFFF = .instr (.mgPldwr 63 65535 0xFFFFFFFF) := by decide

theorem test_witness_DecodeMatchesOpcodeTable :
    (⟨"MG.CONFIG", 0x0800000000000000, 0xFC0FFFFEFFFFFFFF⟩ : Row) ∈ opcodeTable
      ∧ (⟨"H.END", 0xF800000000000000, 0xFFFFFFFFFFFFFFFF⟩ : Row) ∈ opcodeTable := by
  simp [opcodeTable, mgRows, pwmRows, lastRows]

/-- Every command is fetched by LO in some state, and by HI in some state. -/
theorem test_witness_Fetches (c : Command) :
    Fetches (loading c) .lo c ∧ Fetches { demoHi with hi := ⟨0, 0, [c]⟩ } .hi c :=
  ⟨⟨rfl, by simp [loading, demo, State.reset, State.resetOf], rfl, rfl⟩, ⟨rfl, by simp [demoHi], rfl, rfl⟩⟩

/-- Each range of R96 at both ends, with `test_witness_Fetches`. -/
theorem test_witness_ReservedOpcodeFaults :
    (opField 0x03FFFFFFFFFFFFFF).toNat = 0x00 ∧ (opField 0x2400000000000000).toNat = 0x09
      ∧ (opField 0x3FFFFFFFFFFFFFFF).toNat = 0x0F ∧ (opField 0x9400000000000000).toNat = 0x25
      ∧ (opField 0xEFFFFFFFFFFFFFFF).toNat = 0x3B ∧ (opField 0xFC00000000000000).toNat = 0x3F := by decide

/-- A reserved bit of a command, and of a harness line, with `test_witness_Fetches`. -/
theorem test_witness_ReservedFieldFaults :
    (⟨"PWM.PSET", 0x4800000000000000, 0xFFFF000000000000⟩ : Row) ∈ opcodeTable
      ∧ (0x4810000000000000 : Command) &&& opBits = 0x4800000000000000
      ∧ (0x4810000000000000 : Command) &&& 0xFFFF000000000000 ≠ 0x4800000000000000
      ∧ (⟨"H.END", 0xF800000000000000, 0xFFFFFFFFFFFFFFFF⟩ : Row) ∈ opcodeTable
      ∧ (0xF800000100000000 : Command) &&& opBits = 0xF800000000000000
      ∧ (0xF800000100000000 : Command) &&& 0xFFFFFFFFFFFFFFFF ≠ 0xF800000000000000 := by
  refine ⟨?_, by decide, by decide, ?_, by decide, by decide⟩ <;> simp [opcodeTable, mgRows, pwmRows, lastRows]

theorem test_witness_HarnessOpcodeAtPortFaults :
    opField 0xF000000100000000 = 0x3C ∧ opField 0xF400FFFB00000000 = 0x3D ∧ opField 0xF800000000000000 = 0x3E := by decide

theorem test_witness_StepRunsDecodedInstruction :
    Fetches (loading 0x4400000000000000) .lo 0x4400000000000000 ∧ decode 0x4400000000000000 = .instr .pwmPdef
      ∧ decode (BitVec.ofNat 64 (0x4400000000000000 % 2 ^ 64)) = .instr .pwmPdef :=
  ⟨(test_witness_Fetches _).1, by decide, by decide⟩

theorem test_witness_ProgramEndActsAsEnd :
    (nextEvent demo = .cpu ∧ entryEnabled demo = false ∧ running demo = some .lo
        ∧ (ctxOf demo .lo).prog.length ≤ (ctxOf demo .lo).pc)
      ∧ (nextEvent demoHi = .cpu ∧ entryEnabled demoHi = false ∧ running demoHi = some .hi
        ∧ (ctxOf demoHi .hi).prog.length ≤ (ctxOf demoHi .hi).pc)
      ∧ nextEvent { demo with irqPend := true } = .cpu ∧ nextEvent (moved { demo with irqPend := true }) = .cpu
      ∧ demo.hi.prog = [] ∧ entryEnabled { demo with irqPend := true } = true := by decide

theorem test_witness_InterruptEntry :
    (nextEvent { demo with irqPend := true } = .cpu ∧ demo.ie = true ∧ demo.hiActive = false ∧ demo.faulted = false)
      ∧ ∃ t, step { demo with irqPend := true } = .next t ∧ t.hiActive = true :=
  ⟨by decide, _, rfl, rfl⟩

theorem test_witness_InterruptReturn :
    (demoHi.hiActive = true ∧ demoHi.faulted = false ∧ nextEvent demoHi = .cpu ∧ demoHi.hi.prog.length ≤ demoHi.hi.pc)
      ∧ (∃ t, step { demoHi with irqPend := true } = .next t ∧ t.irqPend = true)
      ∧ demoHi.ieAtEntry = true ∧ (∃ t, exec .hEnd { demoHi with irqPend := true } = .next t) :=
  ⟨by decide, ⟨_, rfl, rfl⟩, rfl, _, rfl⟩

theorem test_witness_FaultEntryWritesOnlyTheRecord :
    demo.faulted = false ∧ (∃ t, exec (.pwmSetseq 0 4) demo = .next t ∧ t.faulted = true)
      ∧ ∃ t, step (loading 0) = .next t ∧ t.faulted = true :=
  ⟨rfl, ⟨_, rfl, rfl⟩, _, rfl, rfl⟩

theorem test_witness_FaultStop (e : Event) :
    ({ moving [e] with faulted := true } : State).faulted = true
      ∧ nextEvent { moving [e] with faulted := true } = e
      ∧ (∃ t, step { moving [.tick 1] with faulted := true } = .next t)
      ∧ ∃ t, exec .pwmPdef { demo with faulted := true } = .next t :=
  ⟨rfl, rfl, ⟨_, rfl⟩, _, rfl⟩

theorem test_witness_OnlyHandoffWritesInterruptEnable :
    (mayWriteIe .pwmPdef = false ∧ ∃ t, exec .pwmPdef demo = .next t)
      ∧ (nextEvent (moving [.tick 1]) ≠ .cpu ∧ ∃ t, step (moving [.tick 1]) = .next t)
      ∧ (entryEnabled { demo with irqPend := true } = true ∧ ∃ t, step { demo with irqPend := true } = .next t)
      ∧ (demo.hiActive = false ∧ ∃ t, step { demo with ie := false, irqPend := true } = .next t) :=
  ⟨⟨rfl, _, rfl⟩, ⟨by decide, _, rfl⟩, ⟨rfl, _, rfl⟩, rfl, _, rfl⟩

/-- One payload write under the mask. -/
theorem test_witness_MaskedSectionIsNeverPreempted :
    let s := { loading 0x1C00000000001234 with ie := false, irqPend := true }
    s.hiActive = false ∧ s.ie = false ∧ (∃ t, Host.Core.run core 1 s = .next t)
      ∧ ∀ k < 1, ∀ u ctx c i, Host.Core.run core k s = .next u → Fetches u ctx c → decode c = .instr i →
        mayWriteIe i = false := by
  refine ⟨rfl, rfl, ⟨_, rfl⟩, ?_⟩
  intro k hk u ctx c i hrun hf hd
  obtain rfl : k = 0 := by omega
  cases hrun
  obtain ⟨-, -, hr, hc⟩ := hf
  cases hr
  cases hc
  have : decode 0x1C00000000001234 = .instr (.mgPldwr 0 0 0x1234) := by decide
  rw [this] at hd
  cases hd
  rfl

theorem test_witness_ResultGoesToIssuerOnly :
    (∃ t, exec (.mgPldrd 0 0) demoHi = .next t) ∧ demoHi.hiActive = true ∧ demo.hiActive = false
      ∧ returnsValue .pwmPdef = false ∧ ∃ t, exec .pwmPdef demo = .next t :=
  ⟨⟨_, rfl⟩, rfl, rfl, rfl, _, rfl⟩

/-- A step, for the statements about every step. -/
theorem test_witness_step : ∃ t, step (loading 0x5000000000004000) = .next t ∧ t.lo.pc = 1 := ⟨_, rfl, rfl⟩

theorem test_witness_PinsChangeOnlyAtTicks :
    nextEvent (moving [.tick 2]) ≠ .tick 1 ∧ ∃ t, step (moving [.tick 2]) = .next t :=
  ⟨by decide, _, rfl⟩

theorem test_witness_EnvironmentSteps :
    nextEvent (moving [.raise]) = .raise
      ∧ (nextEvent (moving [.trip 8]) = .trip (7 + 1) ∧ demo.chans[7]? = some (resetChannel runnerConfig))
      ∧ (nextEvent (moving [.sync 1]) = .sync (0 + 1) ∧ demo.chans[0]? = some symCluster) := by decide

theorem test_witness_TickTouchesOnlyItsCluster :
    (nextEvent (moving [.tick 1]) = .tick 1 ∧ ∃ t, step (moving [.tick 1]) = .next t)
      ∧ (chan? demo 1 = some symCluster ∧ symCluster.run = true)
      ∧ (chan? demo 8 = some (resetChannel runnerConfig) ∧ (resetChannel runnerConfig).run = false) :=
  ⟨⟨rfl, _, rfl⟩, by decide, by decide⟩

/-- The shortest and the longest sawtooth period. -/
theorem test_witness_SawtoothPeriodLength (p : Half) (h : p ≠ 0) :
    let ch := { sawCluster with prd := p, prdSh := p }
    ch.ctrMode = .up ∧ ch.prd ≠ 0 ∧ ch.prdSh = ch.prd ∧ ch.ctr = 0 := ⟨rfl, h, rfl, rfl⟩

theorem test_witness_SymmetricPeriodLength (p : Half) (h : p ≠ 0) :
    let ch := { symCluster with prd := p, prdSh := p }
    ch.ctrMode = .upDown ∧ ch.prd ≠ 0 ∧ ch.prdSh = ch.prd ∧ ch.ctr = 0 ∧ ch.ctrDir = true := ⟨rfl, h, rfl, rfl, rfl⟩

theorem test_witness_CounterStaysWithinPeriod :
    let ch := { symCluster with ctr := 1000 }
    ch.prd ≠ 0 ∧ ch.prdSh ≠ 0 ∧ ch.ctr.toNat ≤ ch.prd.toNat := by decide

/-- A tick that reaches zero, with three different shadows, and one that reaches the period. -/
theorem test_witness_ShadowLoadsAtEvents :
    (let t := tickChannel runnerConfig { symCluster with ctr := 1, ctrDir := false, prdSh := 4 }
     t.ctr = 0 ∧ t.prd = 4)
      ∧ (let t := tickChannel runnerConfig { symCluster with ctr := 999, cmpLoad := .period, cmpaSh := 9, dbOutSh := .bypass }
         t.ctr = 1000 ∧ t.cmpa = 9 ∧ t.dbOut = .full) := by decide

theorem test_witness_PinsDoNotOverlap :
    let t := tickChannel runnerConfig { symCluster with tzOst := false }
    t.dbOut = .full ∧ t.tzOst = false ∧ t.pinB = .high := by decide

/-- A completed passive transition, by polarity. -/
theorem test_witness_PassiveStateHoldsSafeLevel :
    passive { symCluster with csf := ⟨.forceLow, .forceLow⟩, csfSh := ⟨.forceLow, .forceLow⟩, dbOut := .bypass,
                              dbOutSh := .bypass, tzOst := false }
      ∧ passive { symCluster with dbPol := true, csf := ⟨.forceHigh, .forceHigh⟩, csfSh := ⟨.forceHigh, .forceHigh⟩,
                                  dbOut := .bypass, dbOutSh := .bypass, tzA := .forceHigh, tzB := .forceHigh } := by
  simp [passive, safeForceOf, symCluster, resetChannel]

/-- Compare 0, and compare at full scale. -/
theorem test_witness_SawtoothDutyFraction :
    (let ch := { sawCluster with cmpa := 0, cmpaSh := 0, aqa := ⟨.set, .noAct, .clear, .noAct⟩ }
     ch.ctrMode = .up ∧ ch.prd ≠ 0 ∧ ch.prdSh = ch.prd ∧ ch.cmpaSh = ch.cmpa ∧ ch.cmpa.toNat ≤ ch.prd.toNat + 1
       ∧ ch.aqa = aqActions runnerAqTable 1 .up ∧ ch.ctr = 0 ∧ ch.aqla = decide (ch.cmpa ≠ 0))
      ∧ (let ch := { sawCluster with aqa := ⟨.set, .noAct, .clear, .noAct⟩, aqla := true }
         ch.ctrMode = .up ∧ ch.prd ≠ 0 ∧ ch.prdSh = ch.prd ∧ ch.cmpaSh = ch.cmpa ∧ ch.cmpa.toNat = ch.prd.toNat + 1
           ∧ ch.aqa = aqActions runnerAqTable 1 .up ∧ ch.ctr = 0 ∧ ch.aqla = decide (ch.cmpa ≠ 0)) := by decide

/-- MG.INIT, MG.CONFIG and the common checks: an untouched, a bound and a configured guard, and no guard. -/
theorem test_witness_MgSetup :
    demo.guards[3]? = some resetGuard ∧ resetGuard.init = false ∧ demo.guards[2]? = some guardBound
      ∧ guardBound.init = true ∧ guardBound.conf = false ∧ demo.guards.length ≤ 4 ∧ demo.cfg.mgObjSize ≤ 4
      ∧ 3 < demo.cfg.mgObjSize ∧ mgTarget (.mgConfig 2 .lowToHigh) = some (2, .bound)
      ∧ mgTarget (.mgBeginw 2) = some (2, .configured) := by decide

/-- A ready guard of each direction, empty and full (BeginWrite, BeginRead, CompleteMovesToken, NoDoubleBuffering). -/
theorem test_witness_GuardReady :
    GuardReady demo 0 guardLh ∧ guardLh.dir = .lowToHigh ∧ guardLh.ready = false
      ∧ GuardReady demo 1 guardHl ∧ guardHl.dir = .highToLow ∧ guardHl.ready = true
      ∧ GuardReady { demo with guards := [{ guardLh with ready := true }] } 0 { guardLh with ready := true }
      ∧ GuardReady { demo with guards := [{ guardHl with ready := false }] } 0 { guardHl with ready := false } :=
  ⟨⟨rfl, rfl, rfl⟩, rfl, rfl, ⟨rfl, rfl, rfl⟩, rfl, rfl, ⟨rfl, rfl, rfl⟩, ⟨rfl, rfl, rfl⟩⟩

/-- The last word, the first word outside, a stored word and a word never written. -/
theorem test_witness_Payload :
    GuardReady demo 0 guardLh ∧ 3 < demo.cfg.payloadWords ∧ demo.cfg.payloadWords ≤ 4
      ∧ payloadStored guardLh.payload 0 = some 7 ∧ payloadStored guardLh.payload 3 = none :=
  ⟨⟨rfl, rfl, rfl⟩, by decide, by decide, rfl, rfl⟩

theorem test_witness_MgFrame :
    mgTarget (.mgPldwr 0 0 1) = some (0, .configured) ∧ (∃ t, exec (.mgPldwr 0 0 1) demo = .next t)
      ∧ (∃ t, exec (.mgPldwr 0 4 1) demo = .next t) ∧ ∀ v, Instr.mgPldwr 0 0 1 ≠ .mgPldwr 1 0 v :=
  ⟨rfl, ⟨_, rfl⟩, ⟨_, rfl⟩, by simp⟩

/-- PWM.INIT, PWM.CONFIG and the common checks: an untouched, a bound and a configured instance, and no instance. -/
theorem test_witness_PwmSetup :
    demo.insts[3]? = some resetInst ∧ resetInst.init = false ∧ demo.insts[2]? = some instBound
      ∧ instBound.init = true ∧ instBound.conf = false ∧ demo.insts.length ≤ 4 ∧ demo.cfg.pwmObjSize ≤ 16
      ∧ 15 < demo.cfg.pwmObjSize ∧ pwmTarget (.pwmConfig 2 1) = some (2, .bound)
      ∧ pwmTarget (.pwmEnout 2) = some (2, .configured) := by decide

/-- A free channel, the instance's own, another's, and the two ids outside the bank. -/
theorem test_witness_PwmConfig :
    (demo.insts[0]? = some symLeg ∧ symLeg.init = true)
      ∧ (demo.chans[7]? = some (resetChannel runnerConfig) ∧ (resetChannel runnerConfig).bound = none)
      ∧ (demo.chans[0]? = some symCluster ∧ symCluster.bound = some 0)
      ∧ (demo.chans[1]? = some sawCluster ∧ sawCluster.bound = some 1) ∧ demo.chans.length < 9 := by decide

/-- Each range of the legal and illegal staged values at its ends. -/
theorem test_witness_ParameterStaging :
    causeAfter (.pwmPset 0 1) demo = some 0 ∧ causeAfter (.pwmPset 1 1) demo = some 0
      ∧ causeAfter (.pwmPset 1 65535) demo = some 0 ∧ causeAfter (.pwmPset 3 65535) demo = some 0
      ∧ causeAfter (.pwmPset 4 1) demo = some 0 ∧ causeAfter (.pwmPset 5 3) demo = some 0
      ∧ causeAfter (.pwmPset 6 0) demo = some 0 ∧ causeAfter (.pwmPset 2 65536) demo = some 0x0B
      ∧ causeAfter (.pwmPset 3 65536) demo = some 0x0B ∧ causeAfter (.pwmPset 4 2) demo = some 0x0B := by decide

/-- A configured leg of each counter mode and parity (every statement about a `Leg`). -/
theorem test_witness_Leg :
    Leg demo 0 symLeg symCluster ∧ symCluster.ctrMode = .upDown ∧ Leg demo 1 sawLeg sawCluster ∧ sawCluster.ctrMode = .up :=
  ⟨⟨rfl, rfl, rfl, by decide, rfl⟩, rfl, ⟨rfl, rfl, rfl, by decide, rfl⟩, rfl⟩

/-- Phases on both sides of one half, and factors on both sides of zero. -/
theorem test_witness_fractions :
    (¬ (q 0x8000 < 0 ∨ 1 ≤ q 0x8000) ∧ q 0x8000 ≤ 1 / 2) ∧ (¬ (q 0x8001 < 0 ∨ 1 ≤ q 0x8001) ∧ ¬ q 0x8001 ≤ 1 / 2)
      ∧ 1 ≤ q 0x10000 ∧ q 0xFFFFFFFF < 0 ∧ 0 < q 1 ∧ q 0 ≤ 0 := by
  have h1 : q 0x8000 = 1 / 2 := by rw [q, show (0x8000 : Word).toInt = 32768 by decide]; norm_num
  have h2 : q 0x8001 = 32769 / 65536 := by rw [q, show (0x8001 : Word).toInt = 32769 by decide]; norm_num
  have h3 : q 0x10000 = 1 := by rw [q, show (0x10000 : Word).toInt = 65536 by decide]; norm_num
  have h4 : q 0xFFFFFFFF = -1 / 65536 := by rw [q, show (0xFFFFFFFF : Word).toInt = -1 by decide]; norm_num
  have h5 : q 1 = 1 / 65536 := by rw [q, show (1 : Word).toInt = 1 by decide]; norm_num
  have h6 : q 0 = 0 := by rw [q, show (0 : Word).toInt = 0 by decide]; norm_num
  rw [h1, h2, h3, h4, h5, h6]
  norm_num

/-- A leg with and without the transition feature, and with the Immediate force load. -/
theorem test_witness_transitions :
    demo.cfg.hasSyncTransition = true ∧ noSync.cfg.hasSyncTransition = false ∧ Leg noSync 0 symLeg symCluster
      ∧ Leg (withCh1 { symCluster with csfLoad := .immediate }) 0 symLeg { symCluster with csfLoad := .immediate } :=
  ⟨rfl, rfl, ⟨rfl, rfl, rfl, by decide, rfl⟩, ⟨rfl, rfl, rfl, by decide, rfl⟩⟩

theorem test_witness_PwmFrame :
    (∃ t, exec (.pwmConfig 2 3) demo = .next t) ∧ (∃ t, exec (.pwmSetseq 0 4) demo = .next t)
      ∧ pwmTarget (.pwmConfig 2 3) = some (2, .bound) ∧ demo.insts[2]? = some instBound ∧ 1 ≠ instBound.ch.toNat
      ∧ ∀ k, Instr.pwmConfig 2 3 ≠ .pwmConfig k 1 :=
  ⟨⟨_, rfl⟩, ⟨_, rfl⟩, rfl, rfl, by decide, by simp⟩

/-- A branch to the first command, one before it, and a result of each kind. -/
theorem test_witness_HarnessLines :
    (resOf { demo with lo := ⟨0, 2, []⟩ } = 0 ∧ 0 ≤ (pcOf { demo with lo := ⟨0, 2, []⟩ } : Int) + (-2))
      ∧ (pcOf { demo with lo := ⟨0, 2, []⟩ } : Int) + (-3) < 0 ∧ resOf { demo with lo := ⟨1, 2, []⟩ } ≠ 0
      ∧ demo.hiActive = false ∧ demoHi.hiActive = true := by decide

theorem test_witness_ResetMeetsInvariant : configLegal runnerConfig = true ∧ 64 ≤ 64 ∧ 65535 ≤ 65535 := by decide

/-- The small state meets the invariant, its memory is canonical, and it goes on. -/
theorem test_witness_Inv : Inv demo ∧ Memory.wf demo = true ∧ ∃ t, step demo = .next t :=
  ⟨⟨by decide, by decide, by decide, by decide, by decide, by decide, by decide, by decide, by decide, by decide, by decide⟩,
    by decide, _, rfl⟩

end Sys2Proof.Tests
end

/-! SUPPORT. The statements of 10_state.md about `IE` and the result registers. What an instruction can do to the state is
said once (`Effect`, `exec_effect`), and so is what a step can do (`StepKind`, `step_kind`); the obligations follow from a case
split over the two. -/

namespace Sys2Proof.Proofs

open Machine Spec

/-! ## What an instruction can do -/

/-- The state is reached from `s` by writes an instruction `i` makes outside the contexts' registers: of `PSTAGE`, guards,
instances and channels, and of `IE` if `i` is one of the commands of R23. -/
inductive BankWrites (i : Instr) (s : State) : State → Prop
  | refl : BankWrites i s s
  | ie {u : State} (hi : mayWriteIe i = true) (b : Bool) : BankWrites i s u → BankWrites i s (setIe b u)
  | pstage {u : State} (p : Params) : BankWrites i s u → BankWrites i s (setPstage p u)
  | guard {u : State} (h : Nat) (g : Guard) : BankWrites i s u → BankWrites i s (setGuard h g u)
  | inst {u : State} (h : Nat) (p : PwmInst) : BankWrites i s u → BankWrites i s (setInst h p u)
  | chan {u : State} (c : Nat) (ch : Channel) : BankWrites i s u → BankWrites i s (setChan c ch u)

/-- The next state of an instruction `i` issued in `s`, one case for each way it can end (R21, R240 to R243, R255, R256). -/
inductive Effect (i : Instr) (s : State) : State → Prop
  | fault (cause : Cause) : Effect i s (faultStop (encode i) cause s)
  | done {u : State} : BankWrites i s u → Effect i s (advance u)
  | answer {u : State} (hr : returnsValue i = true) (v : Word) : BankWrites i s u → Effect i s (advance (setRes v u))
  | jump (hi : ∃ off, i = .hBrz off ∨ i = .hBra off) (n : Nat) : Effect i s (setPc n s)
  | endLo (hi : i = .hEnd) (hc : issuer s = .lo) : Effect i s (endLo s)
  | endHi (hi : i = .hEnd) (hc : issuer s = .hi) : Effect i s (returnInterrupt s)

/-- If the outcome `o` is a next state, that state is an effect of `i` issued in `s`. -/
def Answers (i : Instr) (s : State) (o : Out) : Prop := ∀ t, o = .next t → Effect i s t

section
variable {i : Instr} {s u : State}

theorem Answers.next {t : State} (h : Effect i s t) : Answers i s (.next t) := by
  rintro _ ⟨⟩
  exact h

theorem answers_raiseFault (cause : Cause) : Answers i s (raiseFault i cause s) := .next (.fault cause)

theorem answers_finish (h : BankWrites i s u) : Answers i s (finish u) := .next (.done h)

theorem answers_finishWith (hr : returnsValue i = true) (v : Word) (h : BankWrites i s u) :
    Answers i s (finishWith v u) := .next (.answer hr v h)

theorem answers_finishCluster (p : PwmInst) (cl : Channel) (h : BankWrites i s u) :
    Answers i s (finishCluster p cl u) := answers_finish (.chan _ cl h)

theorem BankWrites.unbind (c : Nat) (h : BankWrites i s u) : BankWrites i s (unbind c u) := by
  unfold Machine.unbind modifyChan
  split
  · exact .chan _ _ h
  · exact h

theorem BankWrites.unbindOld (p : PwmInst) (keep : Nat) (h : BankWrites i s u) :
    BankWrites i s (unbindOld p keep u) := by
  unfold Machine.unbindOld
  split
  · exact .unbind _ h
  · exact h

/-! ### The common checks -/

theorem answers_onGuard {need : Setup} {h : Nat} {body : Guard → Out} (hb : ∀ g, Answers i s (body g)) :
    Answers i s (onGuard need i h s body) := by
  obtain ⟨cause, hf⟩ | ⟨g, -, -, hg⟩ := onGuard_cases need i h s body
  · rw [hf]
    exact answers_raiseFault cause
  · rw [hg]
    exact hb g

theorem answers_onInst {need : Setup} {h : Nat} {body : PwmInst → Out} (hb : ∀ p, Answers i s (body p)) :
    Answers i s (onInst need i h s body) := by
  obtain ⟨cause, hf⟩ | ⟨p, -, -, hp⟩ := onInst_cases need i h s body
  · rw [hf]
    exact answers_raiseFault cause
  · rw [hp]
    exact hb p

theorem answers_onCluster {h : Nat} {body : PwmInst → Channel → Out} (hb : ∀ p cl, Answers i s (body p cl)) :
    Answers i s (onCluster i h s body) := by
  obtain ⟨cause, hf⟩ | ⟨p, -, -, -, -, hn⟩ | ⟨p, cl, -, -, -, -, hp⟩ := onCluster_cases i h s body
  · rw [hf]
    exact answers_raiseFault cause
  · rw [hn]
    rintro _ ⟨⟩
  · rw [hp]
    exact hb p cl

theorem answers_onTransition {h : Nat} {change : PwmInst → Channel → Channel} :
    Answers i s (onTransition i h s change) := by
  refine answers_onCluster fun p cl => ?_
  split
  · exact answers_finishCluster p _ .refl
  · exact answers_raiseFault _

/-! ### The shared bodies -/

theorem answers_beginMasked (hi : mayWriteIe i = true) (hr : returnsValue i = true) (h : Nat) (g : Guard) (granted : Bool) :
    Answers i s (beginMasked h g granted s) := answers_finishWith hr _ (.ie hi _ (.guard h _ .refl))

theorem answers_beginUnmasked (hr : returnsValue i = true) (granted : Bool) :
    Answers i s (beginUnmasked granted s) := answers_finishWith hr _ .refl

theorem answers_completeMasked (hi : mayWriteIe i = true) (h : Nat) (g : Guard) (ready : Bool) :
    Answers i s (completeMasked h g ready s) := answers_finish (.ie hi _ (.guard h _ .refl))

theorem answers_completeUnmasked (h : Nat) (g : Guard) (ready : Bool) :
    Answers i s (completeUnmasked h g ready s) := answers_finish (.guard h _ .refl)

theorem answers_branchBy {off : Int} (hi : i = .hBrz off ∨ i = .hBra off) : Answers i s (branchBy i off s) := by
  simp only [branchBy]
  split
  · exact answers_raiseFault _
  · exact .next (.jump ⟨off, hi⟩ _)

end

/-! ### The instructions whose work has cases of its own -/

section
variable (s : State)

theorem answers_mgInit (h size : Nat) : Answers (.mgInit h size) s (execMgInit h size s) := by
  refine answers_onGuard fun g => ?_
  split
  · exact answers_finishWith rfl _ .refl
  · exact answers_finishWith rfl _ (.guard h _ .refl)

theorem answers_mgBeginw (h : Nat) : Answers (.mgBeginw h) s (execMgBeginw h s) := by
  refine answers_onGuard fun g => ?_
  split
  · exact answers_beginMasked rfl rfl h g _
  · exact answers_beginUnmasked rfl _

theorem answers_mgComplw (h : Nat) : Answers (.mgComplw h) s (execMgComplw h s) := by
  refine answers_onGuard fun g => ?_
  split
  · exact answers_completeMasked rfl h g _
  · exact answers_completeUnmasked h g _

theorem answers_mgBeginr (h : Nat) : Answers (.mgBeginr h) s (execMgBeginr h s) := by
  refine answers_onGuard fun g => ?_
  split
  · exact answers_beginMasked rfl rfl h g _
  · exact answers_beginUnmasked rfl _

theorem answers_mgComplr (h : Nat) : Answers (.mgComplr h) s (execMgComplr h s) := by
  refine answers_onGuard fun g => ?_
  split
  · exact answers_completeMasked rfl h g _
  · exact answers_completeUnmasked h g _

theorem answers_mgPldwr (h index : Nat) (value : Word) :
    Answers (.mgPldwr h index value) s (execMgPldwr h index value s) := by
  refine answers_onGuard fun g => ?_
  split
  · exact answers_finish (.guard h _ .refl)
  · exact answers_raiseFault _

theorem answers_mgPldrd (h index : Nat) : Answers (.mgPldrd h index) s (execMgPldrd h index s) := by
  refine answers_onGuard fun g => ?_
  split
  · exact answers_finishWith rfl _ .refl
  · exact answers_raiseFault _

theorem answers_pwmInit (h size : Nat) : Answers (.pwmInit h size) s (execPwmInit h size s) := by
  refine answers_onInst fun p => ?_
  split
  · exact answers_finishWith rfl _ .refl
  · exact answers_finishWith rfl _ (.inst h _ (.unbindOld p 0 .refl))

theorem answers_pwmPset (field value : Nat) : Answers (.pwmPset field value) s (execPwmPset field value s) := by
  unfold execPwmPset
  split
  · exact answers_finish (.pstage _ .refl)
  · exact answers_raiseFault _

theorem answers_pwmConfig (h channel : Nat) : Answers (.pwmConfig h channel) s (execPwmConfig h channel s) := by
  refine answers_onInst fun p => ?_
  split
  · exact answers_raiseFault _
  · split
    · exact answers_finish (.inst h _ (.chan channel _ (.unbindOld p channel .refl)))
    · exact answers_raiseFault _

theorem answers_pwmScaleprd (h : Nat) (factor : Word) :
    Answers (.pwmScaleprd h factor) s (execPwmScaleprd h factor s) := by
  refine answers_onCluster fun p cl => ?_
  split
  · exact answers_raiseFault _
  · exact answers_finishCluster p _ .refl

theorem answers_pwmSetseq (h seq : Nat) : Answers (.pwmSetseq h seq) s (execPwmSetseq h seq s) := by
  refine answers_onCluster fun p cl => ?_
  split
  · exact answers_raiseFault _
  · exact answers_finishCluster p _ (.inst h _ .refl)

theorem answers_hBrz (off : Int) : Answers (.hBrz off) s (execHBrz off s) := by
  unfold execHBrz
  split
  · exact answers_branchBy (.inl rfl)
  · exact answers_finish .refl

theorem answers_hEnd : Answers .hEnd s (execHEnd s) := by
  unfold execHEnd
  split
  · next hc => exact .next (.endLo rfl hc)
  · next hc => exact .next (.endHi rfl hc)

end

theorem answers_exec (i : Instr) (s : State) : Answers i s (exec i s) := by
  cases i with
  | mgInit h size => exact answers_mgInit s h size
  | mgConfig h dir => exact answers_onGuard fun g => answers_finish (.guard h _ .refl)
  | mgBeginw h => exact answers_mgBeginw s h
  | mgComplw h => exact answers_mgComplw s h
  | mgBeginr h => exact answers_mgBeginr s h
  | mgComplr h => exact answers_mgComplr s h
  | mgPldwr h index value => exact answers_mgPldwr s h index value
  | mgPldrd h index => exact answers_mgPldrd s h index
  | pwmInit h size => exact answers_pwmInit s h size
  | pwmPdef => exact answers_finish (.pstage _ .refl)
  | pwmPset field value => exact answers_pwmPset s field value
  | pwmConfig h channel => exact answers_pwmConfig s h channel
  | pwmScaleprd h factor => exact answers_pwmScaleprd s h factor
  | pwmSetseq h seq => exact answers_pwmSetseq s h seq
  | pwmGetfull | pwmGetctr | pwmGetdir | pwmGetseq | pwmIsen =>
    exact answers_onCluster fun _ _ => answers_finishWith rfl _ .refl
  | pwmSetduty | pwmSetcmpph | pwmSetphase | pwmSetdt | pwmSettzsafe | pwmEnout | pwmDisout =>
    exact answers_onCluster fun p _ => answers_finishCluster p _ .refl
  | pwmSetpassive | pwmSetoper | pwmPrepare => exact answers_onTransition
  | hBrz off => exact answers_hBrz s off
  | hBra off => exact answers_branchBy (.inr rfl)
  | hEnd => exact answers_hEnd s

/-- Every next state of an instruction is one of its effects. -/
theorem exec_effect {i : Instr} {s t : State} (h : exec i s = .next t) : Effect i s t := answers_exec i s t h

/-! ## What bank writes and effects leave unchanged -/

section
variable {i : Instr} {s t u : State}

/-- Bank writes leave every field but the banks, `PSTAGE` and `IE`. -/
theorem BankWrites.frame (h : BankWrites i s u) :
    u = { s with ie := u.ie, pstage := u.pstage, guards := u.guards, insts := u.insts, chans := u.chans } := by
  induction h with
  | refl => rfl
  | ie _ b _ ih => exact congrArg (setIe b) ih
  | pstage p _ ih => exact congrArg (setPstage p) ih
  | guard h g _ ih => exact congrArg (setGuard h g) ih
  | inst h p _ ih => exact congrArg (setInst h p) ih
  | chan c ch _ ih => exact congrArg (setChan c ch) ih

theorem BankWrites.hiActive_eq (h : BankWrites i s u) : u.hiActive = s.hiActive := by rw [h.frame]

theorem BankWrites.issuer_eq (h : BankWrites i s u) : issuer u = issuer s := issuer_congr h.hiActive_eq

theorem BankWrites.ctxOf_eq (h : BankWrites i s u) (c : Ctx) : ctxOf u c = ctxOf s c := by
  rw [h.frame]
  cases c <;> rfl

theorem BankWrites.ie_eq (h : BankWrites i s u) (hi : mayWriteIe i = false) : u.ie = s.ie := by
  induction h with
  | refl => rfl
  | ie hw => simp [hi] at hw
  | pstage _ _ ih | guard _ _ _ ih | inst _ _ _ ih | chan _ _ _ ih => exact ih

/-! ### The registers of a context -/

theorem ctxOf_setRes_other {c : Ctx} (h : c ≠ issuer s) (v : Word) : ctxOf (setRes v s) c = ctxOf s c :=
  ctxOf_setCtx_other h _ s

theorem ctxOf_setPc_other {c : Ctx} (h : c ≠ issuer s) (n : Nat) : ctxOf (setPc n s) c = ctxOf s c :=
  ctxOf_setCtx_other h _ s

theorem ctxOf_advance_other {c : Ctx} (h : c ≠ issuer s) : ctxOf (advance s) c = ctxOf s c := ctxOf_setPc_other h _

theorem ctxOf_setPc_issuer (n : Nat) : ctxOf (setPc n s) (issuer s) = { ctxOf s (issuer s) with pc := n } :=
  ctxOf_setCtx_same _ _ s

theorem res_setPc (n : Nat) (c : Ctx) : (ctxOf (setPc n s) c).res = (ctxOf s c).res := by
  by_cases hc : c = issuer s
  · rw [hc, ctxOf_setPc_issuer]
  · rw [ctxOf_setPc_other hc]

theorem res_advance (c : Ctx) : (ctxOf (advance s) c).res = (ctxOf s c).res := res_setPc _ c

/-- The context that does not issue an instruction keeps every register (R21). -/
theorem Effect.ctxOf_other {c : Ctx} (h : Effect i s t) (hc : c ≠ issuer s) : ctxOf t c = ctxOf s c := by
  cases h with
  | fault | endLo | endHi => cases c <;> rfl
  | done hu => rw [ctxOf_advance_other (by rwa [hu.issuer_eq]), hu.ctxOf_eq]
  | answer _ v hu =>
    have hcu : c ≠ issuer _ := hu.issuer_eq ▸ hc
    rw [ctxOf_advance_other (by rwa [issuer_setRes]), ctxOf_setRes_other hcu, hu.ctxOf_eq]
  | jump _ n => exact ctxOf_setPc_other hc n

/-- An instruction that returns nothing keeps the result of every context (R21). -/
theorem Effect.res_eq (h : Effect i s t) (hr : returnsValue i = false) (c : Ctx) :
    (ctxOf t c).res = (ctxOf s c).res := by
  cases h with
  | fault | endLo | endHi => cases c <;> rfl
  | done hu => rw [res_advance, hu.ctxOf_eq]
  | answer hv => simp [hr] at hv
  | jump _ n => exact res_setPc n c

/-! ### `IE` and `HI_ACTIVE` -/

/-- An instruction that is none of those R23 names keeps `IE`. -/
theorem Effect.ie_eq (h : Effect i s t) (hi : mayWriteIe i = false) : t.ie = s.ie := by
  cases h with
  | fault | endLo => rfl
  | done hu => rw [advance_ie, hu.ie_eq hi]
  | answer _ v hu => rw [advance_ie, setRes_ie, hu.ie_eq hi]
  | jump _ n => exact setPc_ie s n
  | endHi he => simp [he, mayWriteIe] at hi

/-- No instruction activates HI (R24). -/
theorem Effect.hiActive_of (h : Effect i s t) (ha : s.hiActive = false) : t.hiActive = false := by
  cases h with
  | fault | endLo => exact ha
  | done hu => rw [advance_hiActive, hu.hiActive_eq, ha]
  | answer _ v hu => rw [advance_hiActive, setRes_hiActive, hu.hiActive_eq, ha]
  | jump _ n => rw [setPc_hiActive, ha]
  | endHi => rfl

end

/-! ## What a step can do -/

/-- The next state of a step from `s`, one case for each kind of step (R250, R251, R253, R254). -/
inductive StepKind (s : State) : State → Prop
  | agent (he : nextEvent s ≠ .cpu) (irq : Bool) (chans : List Channel) :
    StepKind s { popSched s with irqPend := irq, chans := chans }
  | entry (he : nextEvent s = .cpu) (hen : entryEnabled s = true) : StepKind s (enterInterrupt (popSched s))
  | idle (he : nextEvent s = .cpu) (hen : entryEnabled s = false) (hr : running s = none) : StepKind s (popSched s)
  | instr {ctx : Ctx} {i : Instr} {t : State} (he : nextEvent s = .cpu) (hen : entryEnabled s = false)
    (hr : running s = some ctx) (hx : exec i (popSched s) = .next t) : StepKind s t
  | bad {ctx : Ctx} {c : Command} {e : DecodeError} (he : nextEvent s = .cpu) (hen : entryEnabled s = false)
    (hr : running s = some ctx) (hd : decode c = .bad e) : StepKind s (faultStop c (decodeCause e) (popSched s))

/-- `modifyChan` writes the channels alone. -/
theorem modifyChan_eq_chans (c : Nat) (f : Channel → Channel) (s : State) :
    modifyChan c f s = { s with chans := (modifyChan c f s).chans } := by
  unfold modifyChan
  split <;> rfl

section
variable {s t : State}

/-- A change of one channel by an agent other than the processor is a step of TIMER or ENV (R250). -/
theorem stepKind_of_modifyChan (he : nextEvent s ≠ .cpu) (c : Nat) (f : Channel → Channel) :
    StepKind s (modifyChan c f (popSched s)) := by
  rw [modifyChan_eq_chans]
  exact .agent he s.irqPend _

/-- Every step of the processor is of one of the kinds. -/
theorem stepKind_of_cpu (he : nextEvent s = .cpu) (h : processorStep exec (popSched s) = .next t) : StepKind s t := by
  obtain ⟨hen, hp⟩ | ⟨hen, hr, hp⟩ | ⟨ctx, hen, hr, ⟨i, hp⟩ | ⟨c, e, hd, hp⟩⟩ := processorStep_cases exec (popSched s)
  · cases hp.symm.trans h
    exact .entry he hen
  · cases hp.symm.trans h
    exact .idle he hen hr
  · exact .instr he hen hr (hp.symm.trans h)
  · cases hp.symm.trans h
    exact .bad he hen hr hd

/-- Every step is of one of the kinds. -/
theorem step_kind (h : step s = .next t) : StepKind s t := by
  rw [step_eq] at h
  cases he : nextEvent s with
  | cpu => exact stepKind_of_cpu he (by rwa [he] at h)
  | raise =>
    rw [he] at h
    cases h
    exact .agent (by simp [he]) true s.chans
  | trip c | sync c | tick c =>
    rw [he] at h
    cases h
    exact stepKind_of_modifyChan (by simp [he]) c _

/-- Interrupt entry is taken when it is enabled and the processor moves (R254). -/
theorem step_entry (he : nextEvent s = .cpu) (hen : entryEnabled s = true) :
    step s = .next (enterInterrupt (popSched s)) := by
  rw [step_eq, he]
  exact processorStep_entry hen

/-- A step of TIMER or ENV and interrupt entry keep `IE` (R23). -/
theorem StepKind.ie_eq (h : StepKind s t) (hs : nextEvent s ≠ .cpu ∨ entryEnabled s = true) : t.ie = s.ie := by
  cases h with
  | agent | entry | idle | bad => rfl
  | instr he hen => simp [he, hen] at hs

/-- No step activates HI while `IE` is 0 (R23). -/
theorem StepKind.hiActive_of_masked (h : StepKind s t) (ha : s.hiActive = false) (hie : s.ie = false) :
    t.hiActive = false := by
  cases h with
  | agent | idle | bad => exact ha
  | entry _ hen => simp [entryEnabled, hie] at hen
  | instr _ _ _ hx => exact (exec_effect hx).hiActive_of ha

end

/-! ## The obligations -/

/-- Settles O16: `IE` by the effects of an instruction and the kinds of a step; the entry is the processor's step. -/
theorem onlyHandoffWritesInterruptEnable : Obligations.OnlyHandoffWritesInterruptEnable := by
  refine ⟨fun i s t hi hx => (exec_effect hx).ie_eq hi, fun s t hx hs => (step_kind hx).ie_eq hs,
    fun s t ha hie hx => (step_kind hx).hiActive_of_masked ha hie, fun s ha hf hie hirq he => ?_, fun _ _ _ _ _ _ => rfl⟩
  have hen : entryEnabled s = true := by simp [entryEnabled, ha, hf, hie, hirq]
  exact ⟨_, step_entry he hen, rfl, rfl⟩

/-- Settles O18: an effect keeps the context that does not issue, and a result only a command with a value writes. -/
theorem resultGoesToIssuerOnly : Obligations.ResultGoesToIssuerOnly := by
  intro i s t hx
  have he : Effect i s t := exec_effect hx
  refine ⟨fun ha => ⟨?_, fun hr => he.res_eq hr .hi⟩, fun ha => ⟨?_, fun hr => he.res_eq hr .lo⟩⟩
  · exact he.ctxOf_other (c := .lo) (by simp [issuer, ha])
  · exact he.ctxOf_other (c := .hi) (by simp [issuer, ha])

end Sys2Proof.Proofs

/-! SUPPORT. The statement of 20_memory.md about the command programs (R83). The operations on a context's registers keep its
program, so every effect of an instruction (`Effect`) and every kind of step (`StepKind`) does. -/

namespace Sys2Proof.Proofs

open Machine Spec

section
variable {i : Instr} {s t : State}

/-- Writing back a context's record with the same program keeps every program. -/
theorem prog_setCtx {d : Ctx} {x : Context} (hx : x.prog = (ctxOf s d).prog) (c : Ctx) :
    (ctxOf (setCtx d x s) c).prog = (ctxOf s c).prog := by
  by_cases hc : c = d
  · rw [hc, ctxOf_setCtx_same, hx]
  · rw [ctxOf_setCtx_other hc]

theorem prog_setRes (v : Word) (c : Ctx) : (ctxOf (setRes v s) c).prog = (ctxOf s c).prog := prog_setCtx (by rfl) c

theorem prog_setPc (n : Nat) (c : Ctx) : (ctxOf (setPc n s) c).prog = (ctxOf s c).prog := prog_setCtx (by rfl) c

theorem prog_advance (c : Ctx) : (ctxOf (advance s) c).prog = (ctxOf s c).prog := prog_setPc _ c

/-- No instruction writes a program. -/
theorem Effect.prog_eq (h : Effect i s t) (c : Ctx) : (ctxOf t c).prog = (ctxOf s c).prog := by
  cases h with
  | fault | endLo | endHi => cases c <;> rfl
  | done hu => rw [prog_advance, hu.ctxOf_eq]
  | answer _ v hu => rw [prog_advance, prog_setRes, hu.ctxOf_eq]
  | jump _ n => exact prog_setPc n c

/-- No step of any kind writes a program; interrupt entry writes HI's `PC` alone (R254). -/
theorem StepKind.prog_eq (h : StepKind s t) (c : Ctx) : (ctxOf t c).prog = (ctxOf s c).prog := by
  cases h with
  | agent | entry | idle | bad => cases c <;> rfl
  | instr _ _ _ hx => rw [(exec_effect hx).prog_eq, ctxOf_popSched]

end

/-- Settles O19: every kind of step keeps the program of each context. -/
theorem programsAreNeverWritten : Obligations.ProgramsAreNeverWritten :=
  fun _ _ h => ⟨(step_kind h).prog_eq .lo, (step_kind h).prog_eq .hi⟩

end Sys2Proof.Proofs

/-! SUPPORT. The statements of 30_encoding.md about the decoder and the encoder. An instruction's row of the opcode table is
its mnemonic, its opcode and the mask of its format (`rowOf`); what the decoder can answer is said once (`Verdict`,
`decode_verdict`). The statements about accepted, malformed and reserved commands follow from the two. -/

namespace Sys2Proof.Proofs

open Machine Spec

/-! ## Formats and the opcode table (R92, R93, R95) -/

/-- The formats of R92, `E` being `Z`; `dir` and `pset` are those of MG.CONFIG and PWM.PSET (R93). -/
inductive Format where
  | n | i | w | iw | z | b | dir | pset

/-- The decoder's check that the must-be-zero fields of a format are zero. -/
def Format.check : Format → Command → Bool
  | .n => formatN
  | .i => formatI
  | .w => formatW
  | .iw => formatIW
  | .z => formatZ
  | .b => formatB
  | .dir => formatDir
  | .pset => formatPset

/-- The fields beside `RSV` that a format needs zero. -/
def Format.OperandsZero (c : Command) : Format → Prop
  | .n => immField c = 0#16 ∧ opndField c = 0#32
  | .i => opndField c = 0#32
  | .w => immField c = 0#16
  | .iw => True
  | .z => hField c = 0#6 ∧ immField c = 0#16 ∧ opndField c = 0#32
  | .b => hField c = 0#6 ∧ opndField c = 0#32
  | .dir => opndField c = 0#32 ∧ (immField c).extractLsb' 1 15 = 0#15
  | .pset => hField c = 0#6

/-- The opcode bits and a format's must-be-zero bits. -/
def Format.mask : Format → Command
  | .n => 0xFC0FFFFFFFFFFFFF
  | .i => 0xFC0F0000FFFFFFFF
  | .w => 0xFC0FFFFF00000000
  | .iw => 0xFC0F000000000000
  | .z => 0xFFFFFFFFFFFFFFFF
  | .b => 0xFFFF0000FFFFFFFF
  | .dir => 0xFC0FFFFEFFFFFFFF
  | .pset => 0xFFFF000000000000

/-- The command with the opcode `op` and the operands a format takes from `c`. -/
def Format.rebuild (op : Nat) (c : Command) : Format → Command
  | .n => command op (handleOf c) 0 0
  | .i => command op (handleOf c) (immOf c) 0
  | .w => command op (handleOf c) 0 (opndField c)
  | .iw => command op (handleOf c) (immOf c) (opndField c)
  | .z => command op 0 0 0
  | .b => command op 0 (immOf c) 0
  | .dir => command op (handleOf c) (directionBit (directionOf c)) 0
  | .pset => command op 0 (immOf c) (opndField c)

/-- An instruction's opcode (R95). -/
def opcode : Instr → Nat
  | .mgInit _ _ => 0x01
  | .mgConfig _ _ => 0x02
  | .mgBeginw _ => 0x03
  | .mgComplw _ => 0x04
  | .mgBeginr _ => 0x05
  | .mgComplr _ => 0x06
  | .mgPldwr _ _ _ => 0x07
  | .mgPldrd _ _ => 0x08
  | .pwmInit _ _ => 0x10
  | .pwmPdef => 0x11
  | .pwmPset _ _ => 0x12
  | .pwmConfig _ _ => 0x13
  | .pwmSetduty _ _ => 0x14
  | .pwmSetcmpph _ _ => 0x15
  | .pwmSetphase _ _ => 0x16
  | .pwmScaleprd _ _ => 0x17
  | .pwmGetfull _ => 0x18
  | .pwmGetctr _ => 0x19
  | .pwmGetdir _ => 0x1A
  | .pwmSetseq _ _ => 0x1B
  | .pwmGetseq _ => 0x1C
  | .pwmSetdt _ _ _ => 0x1D
  | .pwmSettzsafe _ => 0x1E
  | .pwmEnout _ => 0x1F
  | .pwmDisout _ => 0x20
  | .pwmIsen _ => 0x21
  | .pwmSetpassive _ => 0x22
  | .pwmSetoper _ => 0x23
  | .pwmPrepare _ => 0x24
  | .hBrz _ => 0x3C
  | .hBra _ => 0x3D
  | .hEnd => 0x3E

/-- An instruction's format (R95). -/
def format : Instr → Format
  | .mgConfig _ _ => .dir
  | .mgPldwr _ _ _ => .iw
  | .mgPldrd _ _ | .pwmConfig _ _ | .pwmSetcmpph _ _ | .pwmSetseq _ _ => .i
  | .mgInit _ _ | .pwmInit _ _ | .pwmSetduty _ _ | .pwmSetphase _ _ | .pwmScaleprd _ _ | .pwmSetdt _ _ _ => .w
  | .pwmPset _ _ => .pset
  | .pwmPdef | .hEnd => .z
  | .hBrz _ | .hBra _ => .b
  | _ => .n

/-- The reserved opcodes of R96. -/
def isReservedOp (op : Nat) : Bool :=
  op == 0 || 0x09 ≤ op && op ≤ 0x0F || 0x25 ≤ op && op ≤ 0x3B || op == 0x3F

/-- The opcode `op` and nothing else. -/
def opcodeBits (op : Nat) : Command := command op 0 0 0

/-- An instruction's row of the opcode table. -/
def rowOf (i : Instr) : Row := ⟨mnemonic i, opcodeBits (opcode i), (format i).mask⟩

/-- The table lists the instructions in the order of their constructors. -/
theorem getElem?_opcodeTable (i : Instr) : opcodeTable[i.ctorIdx]? = some (rowOf i) := by
  cases i <;> rw [rowOf, opcode] <;> rfl

theorem rowOf_mem (i : Instr) : rowOf i ∈ opcodeTable := List.mem_of_getElem? (getElem?_opcodeTable i)

theorem names_nodup : (opcodeTable.map Row.name).Nodup := by decide

theorem bits_nodup : (opcodeTable.map Row.bits).Nodup := by decide

theorem opBits_row : ∀ row ∈ opcodeTable, row.bits &&& opBits = row.bits ∧ row.mask &&& opBits = opBits := by decide

/-- The table's opcodes are none of the reserved ones. -/
theorem not_reserved_row : ∀ row ∈ opcodeTable, isReservedOp (opField row.bits).toNat = false := by decide

/-- A row is the row of an instruction with its mnemonic. -/
theorem eq_rowOf_of_name {row : Row} {i : Instr} (hrow : row ∈ opcodeTable) (h : row.name = mnemonic i) : row = rowOf i :=
  List.inj_on_of_nodup_map names_nodup hrow (rowOf_mem i) h

/-- A row is the row of an instruction with its opcode. -/
theorem eq_rowOf_of_bits {row : Row} {i : Instr} (hrow : row ∈ opcodeTable) (h : row.bits = opcodeBits (opcode i)) :
    row = rowOf i :=
  List.inj_on_of_nodup_map bits_nodup hrow (rowOf_mem i) h

/-! ## Fields -/

section
variable {c d m : Command}

/-- Commands are equal field by field. -/
theorem eq_iff_fields : c = d ↔ opField c = opField d ∧ hField c = hField d ∧ rsvField c = rsvField d ∧
    immField c = immField d ∧ opndField c = opndField d := by
  refine ⟨fun h => by simp [h], fun ⟨ho, hh, hr, hi, hd⟩ => ?_⟩
  rw [← fields_append c, ← fields_append d, ho, hh, hr, hi, hd]

/-- A mask applies field by field. -/
theorem and_eq_opcodeBits_iff {op : Nat} : c &&& m = opcodeBits op ↔
    opField c &&& m.extractLsb' 58 6 = BitVec.ofNat 6 op ∧ hField c &&& m.extractLsb' 52 6 = 0#6 ∧
      rsvField c &&& m.extractLsb' 48 4 = 0#4 ∧ immField c &&& m.extractLsb' 32 16 = 0#16 ∧
      opndField c &&& m.extractLsb' 0 32 = 0#32 := by
  rw [eq_iff_fields, opcodeBits, opField_command, hField_command, rsvField_command, immField_command, opndField_command]
  simp only [opField, hField, rsvField, immField, opndField, BitVec.extractLsb'_and]
  rfl

/-- What a format check checks. -/
theorem Format.check_iff {f : Format} : f.check c = true ↔ rsvField c = 0#4 ∧ f.OperandsZero c := by
  cases f <;> simp [Format.check, Format.OperandsZero, formatN, formatI, formatW, formatIW, formatZ, formatB, formatDir,
    formatPset, rsvZero, hZero, immZero, opndZero, and_assoc]

/-! The masks' full fields, as the numerals that a table row's mask has there. -/

theorem and_ones_6 (x : BitVec 6) : x &&& 63#6 = x := BitVec.and_allOnes

theorem and_ones_4 (x : BitVec 4) : x &&& 15#4 = x := BitVec.and_allOnes

theorem and_ones_16 (x : BitVec 16) : x &&& 65535#16 = x := BitVec.and_allOnes

theorem and_ones_32 (x : BitVec 32) : x &&& 4294967295#32 = x := BitVec.and_allOnes

/-- The reserved bits of the direction operand are zero under their mask exactly if they are zero (R93). -/
theorem and_directionMask_eq_zero_iff (x : BitVec 16) : x &&& 65534#16 = 0#16 ↔ x.extractLsb' 1 15 = 0#15 := by
  refine ⟨fun h => BitVec.eq_of_getLsbD_eq fun k hk => ?_, fun h => BitVec.eq_of_getLsbD_eq fun k hk => ?_⟩
  · have := congrArg (BitVec.getLsbD · (1 + k)) h
    interval_cases k <;> simpa using this
  · have := congrArg (BitVec.getLsbD · (k - 1)) h
    interval_cases k <;> simp <;> simpa using this

/-- The direction bit is the whole direction operand if the reserved bits above it are zero (R122). -/
theorem directionBit_directionOf (h : (immField c).extractLsb' 1 15 = 0#15) : directionBit (directionOf c) = immOf c := by
  have hlt := (immField c).isLt
  have hz : (immField c).toNat / 2 % 32768 = 0 := by
    simpa [Nat.shiftRight_eq_div_pow] using congrArg BitVec.toNat h
  simp only [directionOf, immOf, BitVec.getLsbD, Nat.testBit_zero, decide_eq_true_eq]
  split <;> simp only [directionBit] <;> omega

/-- A command matches a format under its mask exactly if it has the opcode and the format's reserved fields are zero. -/
theorem and_formatMask_eq_iff (f : Format) {op : Nat} :
    c &&& f.mask = opcodeBits op ↔ opField c = BitVec.ofNat 6 op ∧ f.check c = true := by
  rw [and_eq_opcodeBits_iff, Format.check_iff]
  cases f <;> simp [Format.mask, Format.OperandsZero, and_ones_6, and_ones_4, and_ones_16, and_ones_32,
    and_directionMask_eq_zero_iff] <;> tauto

end

/-! ## Operands (R94) -/

section
variable (c : Command)

@[simp] theorem fitsHandle_handleOf : fitsHandle (handleOf c) = true := decide_eq_true (hField c).isLt

@[simp] theorem fitsWord_opndField : fitsWord (opndField c).toNat = true := decide_eq_true (opndField c).isLt

@[simp] theorem fitsHalf_immOf : fitsHalf (immOf c) = true := decide_eq_true (immField c).isLt

@[simp] theorem fitsHalf_redOf : fitsHalf (redOf c) = true := decide_eq_true (BitVec.isLt _)

@[simp] theorem fitsHalf_fedOf : fitsHalf (fedOf c) = true := decide_eq_true (BitVec.isLt _)

@[simp] theorem fitsOffset_offsetOf : fitsOffset (offsetOf c) = true := by
  have hlo := BitVec.le_toInt (immField c)
  have hhi := BitVec.toInt_lt (x := immField c)
  simp only [fitsOffset, Bool.and_eq_true, decide_eq_true_eq]
  unfold offsetOf
  omega

@[simp] theorem offsetImm_offsetOf : offsetImm (offsetOf c) = immOf c := by
  simp [offsetImm, offsetOf, immOf]

@[simp] theorem packCounts_redOf_fedOf : packCounts (redOf c) (fedOf c) = opndField c := by
  rw [packCounts, redOf, fedOf, BitVec.ofNat_toNat, BitVec.ofNat_toNat, BitVec.setWidth_eq, BitVec.setWidth_eq]
  exact BitVec.extractLsb'_append_extractLsb'

end

/-- A command with its format's reserved fields zero is made again from its opcode and its operands. -/
theorem rebuild_eq {c : Command} {f : Format} (h : f.check c = true) : f.rebuild (opField c).toNat c = c := by
  obtain ⟨hrsv, hz⟩ := Format.check_iff.1 h
  conv_rhs => rw [← command_fields hrsv]
  cases f with
  | dir =>
    obtain ⟨hopnd, hdir⟩ := hz
    rw [Format.rebuild, directionBit_directionOf hdir, hopnd]
    rfl
  | n | i | w | iw | z | b | pset => simp_all [Format.rebuild, Format.OperandsZero, handleOf, immOf]

section
variable {op h imm : Nat} {opnd : Word}

theorem handleOf_command (hh : fitsHandle h = true) : handleOf (command op h imm opnd) = h := by
  rw [handleOf, hField_command, BitVec.toNat_ofNat, Nat.mod_eq_of_lt (of_decide_eq_true hh)]

theorem immOf_command (hi : fitsHalf imm = true) : immOf (command op h imm opnd) = imm := by
  rw [immOf, immField_command, BitVec.toNat_ofNat, Nat.mod_eq_of_lt (of_decide_eq_true hi)]

theorem opndField_toNat_command {n : Nat} (hn : fitsWord n = true) :
    (opndField (command op h imm (BitVec.ofNat 32 n))).toNat = n := by
  rw [opndField_command, BitVec.toNat_ofNat, Nat.mod_eq_of_lt (of_decide_eq_true hn)]

theorem offsetOf_command {off : Int} (ho : fitsOffset off = true) :
    offsetOf (command op h (offsetImm off) opnd) = off := by
  simp only [fitsOffset, Bool.and_eq_true, decide_eq_true_eq] at ho
  rw [offsetOf, immField_command, offsetImm, BitVec.ofNat_toNat, BitVec.setWidth_eq]
  exact BitVec.toInt_ofInt_eq_self (by decide) (by omega) (by omega)

theorem directionOf_command (dir : Direction) : directionOf (command op h (directionBit dir) opnd) = dir := by
  cases dir <;> simp [directionOf, immField_command, directionBit]

theorem redOf_command {red : Nat} (hr : fitsHalf red = true) (fed : Nat) :
    redOf (command op h imm (packCounts red fed)) = red := by
  rw [redOf, opndField_command, packCounts, BitVec.extractLsb'_append_eq_right, BitVec.toNat_ofNat,
    Nat.mod_eq_of_lt (of_decide_eq_true hr)]

theorem fedOf_command {fed : Nat} (hf : fitsHalf fed = true) (red : Nat) :
    fedOf (command op h imm (packCounts red fed)) = fed := by
  rw [fedOf, opndField_command, packCounts, BitVec.extractLsb'_append_eq_left, BitVec.toNat_ofNat,
    Nat.mod_eq_of_lt (of_decide_eq_true hf)]

end

/-! ## What the decoder answers -/

/-- What the decoder can answer for `c` (R95, R96, R99): it checks the format of the one instruction that has `c`'s opcode
and `c`'s operands, or the opcode is reserved. -/
inductive Verdict (c : Command) : Decoded → Prop
  | row {i : Instr} (hop : (opField c).toNat = opcode i) (hwf : i.wf = true)
      (he : encode i = (format i).rebuild (opcode i) c) : Verdict c (checked ((format i).check c) i)
  | reserved (hr : isReservedOp (opField c).toNat = true) : Verdict c (.bad .illegalOpcode)

section
variable {c : Command}

/-- The harness's decoder answers so for its three opcodes. -/
theorem decodeHarness_verdict (hc : isHarnessOp c = true) : Verdict c (decodeHarness c) := by
  unfold decodeHarness
  split
  case h_1 hop => exact .row (i := .hBrz _) hop (fitsOffset_offsetOf c) (by simp [encode, format, Format.rebuild, opcode])
  case h_2 hop => exact .row (i := .hBra _) hop (fitsOffset_offsetOf c) (by simp [encode, format, Format.rebuild, opcode])
  case h_3 hop => exact .row (i := .hEnd) hop rfl rfl
  case h_4 h60 h61 h62 =>
    simp [isHarnessOp, ← BitVec.toNat_inj] at hc
    obtain (h | h) | h := hc
    exacts [(h60 h).elim, (h61 h).elim, (h62 h).elim]

/-- The block's decoder answers so for every other opcode. -/
theorem decodeBlock_verdict (hc : isHarnessOp c = false) : Verdict c (decodeBlock c) := by
  unfold decodeBlock
  split
  case h_1 hop => exact .row (i := .mgInit _ _) hop (by simp [Instr.wf]) (by simp [encode, format, Format.rebuild, opcode])
  case h_2 hop => exact .row (i := .mgConfig _ _) hop (by simp [Instr.wf]) rfl
  case h_3 hop => exact .row (i := .mgBeginw _) hop (fitsHandle_handleOf c) rfl
  case h_4 hop => exact .row (i := .mgComplw _) hop (fitsHandle_handleOf c) rfl
  case h_5 hop => exact .row (i := .mgBeginr _) hop (fitsHandle_handleOf c) rfl
  case h_6 hop => exact .row (i := .mgComplr _) hop (fitsHandle_handleOf c) rfl
  case h_7 hop => exact .row (i := .mgPldwr _ _ _) hop (by simp [Instr.wf]) rfl
  case h_8 hop => exact .row (i := .mgPldrd _ _) hop (by simp [Instr.wf]) rfl
  case h_9 hop => exact .row (i := .pwmInit _ _) hop (by simp [Instr.wf]) (by simp [encode, format, Format.rebuild, opcode])
  case h_10 hop => exact .row (i := .pwmPdef) hop rfl rfl
  case h_11 hop => exact .row (i := .pwmPset _ _) hop (by simp [Instr.wf]) (by simp [encode, format, Format.rebuild, opcode])
  case h_12 hop => exact .row (i := .pwmConfig _ _) hop (by simp [Instr.wf]) rfl
  case h_13 hop => exact .row (i := .pwmSetduty _ _) hop (by simp [Instr.wf]) rfl
  case h_14 hop => exact .row (i := .pwmSetcmpph _ _) hop (by simp [Instr.wf]) rfl
  case h_15 hop => exact .row (i := .pwmSetphase _ _) hop (by simp [Instr.wf]) rfl
  case h_16 hop => exact .row (i := .pwmScaleprd _ _) hop (by simp [Instr.wf]) rfl
  case h_17 hop => exact .row (i := .pwmGetfull _) hop (fitsHandle_handleOf c) rfl
  case h_18 hop => exact .row (i := .pwmGetctr _) hop (fitsHandle_handleOf c) rfl
  case h_19 hop => exact .row (i := .pwmGetdir _) hop (fitsHandle_handleOf c) rfl
  case h_20 hop => exact .row (i := .pwmSetseq _ _) hop (by simp [Instr.wf]) rfl
  case h_21 hop => exact .row (i := .pwmGetseq _) hop (fitsHandle_handleOf c) rfl
  case h_22 hop =>
    exact .row (i := .pwmSetdt _ _ _) hop (by simp [Instr.wf]) (by simp [encode, format, Format.rebuild, opcode])
  case h_23 hop => exact .row (i := .pwmSettzsafe _) hop (fitsHandle_handleOf c) rfl
  case h_24 hop => exact .row (i := .pwmEnout _) hop (fitsHandle_handleOf c) rfl
  case h_25 hop => exact .row (i := .pwmDisout _) hop (fitsHandle_handleOf c) rfl
  case h_26 hop => exact .row (i := .pwmIsen _) hop (fitsHandle_handleOf c) rfl
  case h_27 hop => exact .row (i := .pwmSetpassive _) hop (fitsHandle_handleOf c) rfl
  case h_28 hop => exact .row (i := .pwmSetoper _) hop (fitsHandle_handleOf c) rfl
  case h_29 hop => exact .row (i := .pwmPrepare _) hop (fitsHandle_handleOf c) rfl
  case h_30 =>
    -- what no arm names is reserved: the six bits leave no other opcode
    have hlt := (opField c).isLt
    simp [isHarnessOp, ← BitVec.toNat_inj] at hc
    simp only [imp_false] at *
    exact .reserved (by simp [isReservedOp]; omega)

/-- The decoder's answer to every command. -/
theorem decode_verdict (c : Command) : Verdict c (decode c) := by
  unfold decode
  cases hc : isHarnessOp c with
  | true => exact decodeHarness_verdict hc
  | false => exact decodeBlock_verdict hc

end

theorem checked_eq_instr_iff {ok : Bool} {i j : Instr} : checked ok i = .instr j ↔ ok = true ∧ i = j := by
  cases ok <;> simp [checked]

/-- An accepted command has the opcode and the zero fields of its instruction, and is its encoding. -/
theorem decode_eq_instr {c : Command} {i : Instr} (h : decode c = .instr i) :
    (opField c).toNat = opcode i ∧ (format i).check c = true ∧ i.wf = true ∧ encode i = c := by
  have hv := decode_verdict c
  generalize decode c = v at h hv
  cases hv with
  | row hop hwf he =>
    obtain ⟨hz, rfl⟩ := checked_eq_instr_iff.1 h
    exact ⟨hop, hz, hwf, by rw [he, ← hop, rebuild_eq hz]⟩
  | reserved => cases h

theorem opField_of_toNat {c : Command} {op : Nat} (h : (opField c).toNat = op) : opField c = BitVec.ofNat 6 op := by
  rw [← h, BitVec.ofNat_toNat, BitVec.setWidth_eq]

theorem and_opBits_eq_iff {c : Command} {op : Nat} : c &&& opBits = opcodeBits op ↔ opField c = BitVec.ofNat 6 op := by
  rw [and_eq_opcodeBits_iff]
  simp [opBits, and_ones_6]

theorem opField_and_opBits (c : Command) : opField (c &&& opBits) = opField c := by
  rw [opField, BitVec.extractLsb'_and]
  exact and_ones_6 _

/-- A command with a row's opcode is the row's instruction if it matches the row under its mask. -/
theorem decode_of_row {row : Row} (hrow : row ∈ opcodeTable) {c : Command} (hc : c &&& opBits = row.bits) :
    ∃ i, row = rowOf i ∧ decode c = checked (decide (c &&& row.mask = row.bits)) i := by
  have hv := decode_verdict c
  generalize decode c = v at hv
  cases hv with
  | @row i hop =>
    have hrow' : row = rowOf i := eq_rowOf_of_bits hrow (hc ▸ and_opBits_eq_iff.2 (opField_of_toNat hop))
    refine ⟨i, hrow', congrArg (checked · i) (Bool.eq_iff_iff.2 ?_)⟩
    simp [hrow', rowOf, and_formatMask_eq_iff, opField_of_toNat hop]
  | reserved hr =>
    exact absurd (not_reserved_row row hrow) (by simp [← hc, opField_and_opBits, hr])

/-- A command with a reserved opcode is illegal (R96). -/
theorem decode_reserved {c : Command} (h : isReservedOp (opField c).toNat = true) : decode c = .bad .illegalOpcode := by
  have hv := decode_verdict c
  generalize decode c = v at hv
  cases hv with
  | @row i hop =>
    have hrow : opField (rowOf i).bits = opField c := by
      rw [rowOf, opcodeBits, opField_command, opField_of_toNat hop]
    exact absurd (not_reserved_row _ (rowOf_mem i)) (by simp [hrow, h])
  | reserved => rfl

/-! ## The encoder -/

section
variable {op h imm : Nat} {opnd : Word}

theorem formatN_command : formatN (command op h 0 0#32) = true :=
  (Format.check_iff (f := .n)).2 ⟨rsvField_command .., immField_command .., opndField_command ..⟩

theorem formatI_command : formatI (command op h imm 0#32) = true :=
  (Format.check_iff (f := .i)).2 ⟨rsvField_command .., opndField_command ..⟩

theorem formatW_command : formatW (command op h 0 opnd) = true :=
  (Format.check_iff (f := .w)).2 ⟨rsvField_command .., immField_command ..⟩

theorem formatIW_command : formatIW (command op h imm opnd) = true :=
  (Format.check_iff (f := .iw)).2 ⟨rsvField_command .., trivial⟩

theorem formatB_command : formatB (command op 0 imm 0#32) = true :=
  (Format.check_iff (f := .b)).2 ⟨rsvField_command .., hField_command .., opndField_command ..⟩

theorem formatPset_command : formatPset (command op 0 imm opnd) = true :=
  (Format.check_iff (f := .pset)).2 ⟨rsvField_command .., hField_command ..⟩

theorem formatDir_command (dir : Direction) : formatDir (command op h (directionBit dir) 0#32) = true :=
  (Format.check_iff (f := .dir)).2 ⟨rsvField_command .., opndField_command .., by
    rw [immField_command]; cases dir <;> rfl⟩

end

/-- The decoder gives back every well-formed instruction, by the operands its format takes. -/
theorem decode_encode {i : Instr} (hw : i.wf = true) : decode (encode i) = .instr i := by
  cases i with
  | pwmPdef | hEnd => decide
  | mgBeginw h | mgComplw h | mgBeginr h | mgComplr h | pwmGetfull h | pwmGetctr h | pwmGetdir h | pwmGetseq h
  | pwmSettzsafe h | pwmEnout h | pwmDisout h | pwmIsen h | pwmSetpassive h | pwmSetoper h | pwmPrepare h =>
    simp [encode, decode, isHarnessOp, decodeBlock, opField_command, checked, formatN_command, handleOf_command hw]
  | mgPldrd h imm | pwmConfig h imm | pwmSetcmpph h imm | pwmSetseq h imm =>
    obtain ⟨hh, hi⟩ := Bool.and_eq_true_iff.1 hw
    simp [encode, decode, isHarnessOp, decodeBlock, opField_command, checked, formatI_command, handleOf_command hh,
      immOf_command hi]
  | mgPldwr h imm value =>
    obtain ⟨hh, hi⟩ := Bool.and_eq_true_iff.1 hw
    simp [encode, decode, isHarnessOp, decodeBlock, opField_command, checked, formatIW_command, handleOf_command hh,
      immOf_command hi, opndField_command]
  | mgInit h n | pwmInit h n =>
    obtain ⟨hh, hn⟩ := Bool.and_eq_true_iff.1 hw
    simp [encode, decode, isHarnessOp, decodeBlock, opField_command, checked, formatW_command, handleOf_command hh,
      opndField_toNat_command hn]
  | pwmSetduty h w | pwmSetphase h w | pwmScaleprd h w =>
    simp [encode, decode, isHarnessOp, decodeBlock, opField_command, checked, formatW_command, handleOf_command hw,
      opndField_command]
  | pwmSetdt h red fed =>
    obtain ⟨hhr, hf⟩ := Bool.and_eq_true_iff.1 hw
    obtain ⟨hh, hr⟩ := Bool.and_eq_true_iff.1 hhr
    simp [encode, decode, isHarnessOp, decodeBlock, opField_command, checked, formatW_command, handleOf_command hh,
      redOf_command hr, fedOf_command hf]
  | pwmPset field n =>
    obtain ⟨hi, hn⟩ := Bool.and_eq_true_iff.1 hw
    simp [encode, decode, isHarnessOp, decodeBlock, opField_command, checked, formatPset_command, immOf_command hi,
      opndField_toNat_command hn]
  | mgConfig h dir =>
    simp [encode, decode, isHarnessOp, decodeBlock, opField_command, checked, formatDir_command, handleOf_command hw,
      directionOf_command]
  | hBrz off | hBra off =>
    simp [encode, decode, isHarnessOp, decodeHarness, opField_command, checked, formatB_command, offsetOf_command hw]

/-! ## The step on a refused command -/

section
variable {s : State} {ctx : Ctx} {c : Command}

/-- The step acts on the decoder's answer for the fetched command (R240, R251). -/
theorem step_of_fetches (h : Fetches s ctx c) : step s = onVerdict exec c (decode c) (moved s) := by
  have hen : entryEnabled s = false := by simpa [entryEnabled, and_assoc] using h.noEntry
  rw [step_eq, h.processor]
  exact processorStep_fetch (s := popSched s) hen h.runs (by simpa using h.fetched)

/-- A fetched command that the decoder refuses is stopped, and only the schedule moves (R99, R256). -/
theorem step_of_bad {e : DecodeError} (h : Fetches s ctx c) (hd : decode c = .bad e) :
    step s = .next (stopped (moved s) c (causeCode (decodeCause e))) := by
  rw [step_of_fetches h, hd]
  rfl

end

/-! ## The obligations -/

/-- Settles O1: an encoding has its format's zero fields, and each operand that fits its field is read back from it. -/
theorem decodeOfEncode : Obligations.DecodeOfEncode := fun _ => decode_encode

/-- Settles O2: an accepted command is made again from its opcode and its operands, since its other fields are zero. -/
theorem encodeOfDecode : Obligations.EncodeOfDecode := by
  intro c i h
  obtain ⟨-, -, hwf, he⟩ := decode_eq_instr h
  exact ⟨hwf, he⟩

/-- Settles O3: a row is that of every instruction with its mnemonic, and its mask is that instruction's format check. -/
theorem decodeMatchesOpcodeTable : Obligations.DecodeMatchesOpcodeTable := by
  intro row hrow c
  constructor
  · rintro ⟨i, hd, hn⟩
    obtain ⟨hop, hz, -, -⟩ := decode_eq_instr hd
    rw [eq_rowOf_of_name hrow hn.symm]
    exact (and_formatMask_eq_iff _).2 ⟨opField_of_toNat hop, hz⟩
  · intro hc
    obtain ⟨hbits, hmask⟩ := opBits_row row hrow
    have hop : c &&& opBits = row.bits := by rw [← hmask, ← BitVec.and_assoc, hc, hbits]
    obtain ⟨i, rfl, hd⟩ := decode_of_row hrow hop
    exact ⟨i, by simpa [checked, hc] using hd, rfl⟩

/-- Settles O6: the decoder refuses every reserved opcode, and the step stops on what it refuses. -/
theorem reservedOpcodeFaults : Obligations.ReservedOpcodeFaults := by
  intro s ctx c hf hc
  refine step_of_bad hf (decode_reserved ?_)
  obtain h | h | h | h | rfl := hc
  case inr.inr.inr.inr => decide
  all_goals simp [isReservedOp, h]

/-- Settles O7: with a row's opcode, the decoder's answer turns on the row's mask. -/
theorem reservedFieldFaults : Obligations.ReservedFieldFaults := by
  intro row hrow s ctx c hf hop hne
  obtain ⟨i, -, hd⟩ := decode_of_row hrow hop
  exact step_of_bad hf (by simpa [checked, hne] using hd)

/-- Settles O4, by evaluation of the decoder on the eight words. -/
theorem specWordsDecode : Obligations.SpecWordsDecode := by
  unfold Obligations.SpecWordsDecode
  decide

/-- Settles O8: the block's decoder has no arm for a harness opcode. -/
theorem harnessOpcodeAtPortFaults : Obligations.HarnessOpcodeAtPortFaults := by
  intro c hc
  have hblock : decodeBlock c = .bad .illegalOpcode := by
    obtain h | h | h := hc <;> simp [decodeBlock, h]
  have hharness : isHarnessOp c = true := by simpa [isHarnessOp, or_assoc] using hc
  exact ⟨hblock, fun s => by rw [portStep, hblock]; rfl, fun s => by simp [fetchedStep, hharness]⟩

end Sys2Proof.Proofs

/-! SUPPORT. The statements of 41_memgrd.md. The ways a command ends are put once into the spec's words (`finish_eq`,
`finishWith_eq`), and a command on a ready guard does its own work (`onGuard_of_ready`): the next states follow. What a MEMGRD
command can do to the state is said once (`MgEffect`, `mgAnswers_exec`): the frame follows from a case split over it. -/

namespace Sys2Proof.Proofs

open Machine Spec

/-! ## The ends of a command, in the spec's words -/

section
variable (s : State)

/-- A command that returns nothing completes as R240 says. -/
theorem finish_eq : finish s = .next (returned s) := by
  cases h : s.hiActive <;> simp [finish, advance, setPc, setCtx, ctxOf, issuer, returned, h]

/-- A command that returns a value completes as R21 and R240 say. -/
theorem finishWith_eq (v : Word) : finishWith v s = .next (answered v s) := by
  cases h : s.hiActive <;> simp [finishWith, advance, setPc, setRes, setCtx, ctxOf, issuer, answered, h]

/-- A fault raised by a command is the fault-stop of R256. -/
theorem raiseFault_eq (i : Instr) (cause : Cause) :
    raiseFault i cause s = .next (stopped s (encode i) (causeCode cause)) := rfl

theorem beginMasked_eq (h : Nat) (g : Guard) (granted : Bool) :
    beginMasked h g granted s = .next (answered (boolWord granted)
      { s with ie := !granted && s.ie, guards := s.guards.set h { g with saved := s.ie } }) := finishWith_eq _ _

theorem beginUnmasked_eq (granted : Bool) :
    beginUnmasked granted s = .next (answered (boolWord granted) s) := finishWith_eq _ _

theorem completeMasked_eq (h : Nat) (g : Guard) (ready : Bool) :
    completeMasked h g ready s =
      .next (returned { s with guards := s.guards.set h { g with ready := ready }, ie := g.saved }) := finish_eq _

theorem completeUnmasked_eq (h : Nat) (g : Guard) (ready : Bool) :
    completeUnmasked h g ready s =
      .next (returned { s with guards := s.guards.set h { g with ready := ready } }) := finish_eq _

end

/-! ## Commands on a ready guard -/

section
variable {s : State} {h index : Nat} {g : Guard}

/-- A command on a bound and configured guard does its own work (R120). -/
theorem onGuard_of_ready (hr : GuardReady s h g) (i : Instr) (body : Guard → Out) :
    onGuard .configured i h s body = body g :=
  onGuard_ready hr.found (by simp [setupCheck, hr.init, hr.conf])

/-- MG.BEGINW masks on LowToHigh alone, and is granted when the slot is empty (R123). -/
theorem exec_mgBeginw_lowToHigh (hr : GuardReady s h g) (hd : g.dir = .lowToHigh) :
    exec (.mgBeginw h) s = beginMasked h g (!g.ready) s := by
  simp only [exec, execMgBeginw, onGuard_of_ready hr, hd, writerMayClaim]

theorem exec_mgBeginw_highToLow (hr : GuardReady s h g) (hd : g.dir = .highToLow) :
    exec (.mgBeginw h) s = beginUnmasked (!g.ready) s := by
  simp only [exec, execMgBeginw, onGuard_of_ready hr, hd, writerMayClaim]

/-- MG.BEGINR masks on HighToLow alone, and is granted when an item is present (R125). -/
theorem exec_mgBeginr_highToLow (hr : GuardReady s h g) (hd : g.dir = .highToLow) :
    exec (.mgBeginr h) s = beginMasked h g g.ready s := by
  simp only [exec, execMgBeginr, onGuard_of_ready hr, hd, readerMayClaim]

theorem exec_mgBeginr_lowToHigh (hr : GuardReady s h g) (hd : g.dir = .lowToHigh) :
    exec (.mgBeginr h) s = beginUnmasked g.ready s := by
  simp only [exec, execMgBeginr, onGuard_of_ready hr, hd, readerMayClaim]

/-- MG.COMPLW restores `IE` on LowToHigh alone (R124). -/
theorem exec_mgComplw (hr : GuardReady s h g) :
    exec (.mgComplw h) s = .next (returned { s with
      guards := s.guards.set h { g with ready := true }, ie := if g.dir = .lowToHigh then g.saved else s.ie }) := by
  cases hd : g.dir with
  | lowToHigh => simp [exec, execMgComplw, onGuard_of_ready hr, hd, completeMasked_eq]
  | highToLow => simp [exec, execMgComplw, onGuard_of_ready hr, hd, completeUnmasked_eq]

/-- MG.COMPLR restores `IE` on HighToLow alone (R126). -/
theorem exec_mgComplr (hr : GuardReady s h g) :
    exec (.mgComplr h) s = .next (returned { s with
      guards := s.guards.set h { g with ready := false }, ie := if g.dir = .highToLow then g.saved else s.ie }) := by
  cases hd : g.dir with
  | highToLow => simp [exec, execMgComplr, onGuard_of_ready hr, hd, completeMasked_eq]
  | lowToHigh => simp [exec, execMgComplr, onGuard_of_ready hr, hd, completeUnmasked_eq]

/-- MG.PLDWR inside the payload stores its word (R127). -/
theorem exec_mgPldwr_of_lt (hr : GuardReady s h g) (hi : index < s.cfg.payloadWords) (value : Word) :
    exec (.mgPldwr h index value) s = finish (setGuard h (memWrite g index value) s) :=
  (onGuard_of_ready hr _ _).trans (if_pos hi)

theorem exec_mgPldwr_of_le (hr : GuardReady s h g) (hi : s.cfg.payloadWords ≤ index) (value : Word) :
    exec (.mgPldwr h index value) s = raiseFault (.mgPldwr h index value) .badIndex s :=
  (onGuard_of_ready hr _ _).trans (if_neg (by omega))

/-- MG.PLDRD inside the payload returns the word (R128). -/
theorem exec_mgPldrd_of_lt (hr : GuardReady s h g) (hi : index < s.cfg.payloadWords) :
    exec (.mgPldrd h index) s = finishWith (memRead h g index) s :=
  (onGuard_of_ready hr _ _).trans (if_pos hi)

/-- The guard is still ready once a payload word of it has been stored. -/
theorem guardReady_memWrite (hr : GuardReady s h g) (value : Word) :
    GuardReady (advance (setGuard h (memWrite g index value) s)) h (memWrite g index value) where
  found := by rw [advance_guards, guard_setGuard_same hr.found]
  init := hr.init
  conf := hr.conf

/-- A word that MG.PLDWR stored is what a following MG.PLDRD returns (R127, R128, R71). -/
theorem exec_mgPldrd_after_mgPldwr {t : State} {value : Word} (hr : GuardReady s h g) (hi : index < s.cfg.payloadWords)
    (ht : exec (.mgPldwr h index value) s = .next t) : exec (.mgPldrd h index) t = .next (answered value t) := by
  rw [exec_mgPldwr_of_lt hr hi] at ht
  cases ht
  rw [exec_mgPldrd_of_lt (guardReady_memWrite hr value) (by simpa using hi), memRead_memWrite_same, finishWith_eq]

end

/-! ## What a MEMGRD command can do -/

/-- The guards `l'` are `l` but for guard `h`, whose payload words are kept unless the instruction `i` stores them. -/
structure KeepsGuards (i : Instr) (h : Nat) (l l' : List Guard) : Prop where
  other : ∀ k, k ≠ h → l'[k]? = l[k]?
  word : ∀ k j, (∀ v, i ≠ .mgPldwr k j v) → l'[k]?.map (memRead k · j) = l[k]?.map (memRead k · j)

/-- The next state of a MEMGRD command `i` on guard `h`, one case for each way it can end (R121 to R128, R256): beside the
issuing context's `PC` and `RES` it writes `IE` and that guard alone. -/
inductive MgEffect (i : Instr) (h : Nat) (s : State) : State → Prop
  | fault (cause : Cause) : MgEffect i h s (faultStop (encode i) cause s)
  | done (b : Bool) {l : List Guard} (hl : KeepsGuards i h s.guards l) :
    MgEffect i h s (advance { s with ie := b, guards := l })
  | answer (v : Word) (b : Bool) {l : List Guard} (hl : KeepsGuards i h s.guards l) :
    MgEffect i h s (advance (setRes v { s with ie := b, guards := l }))

/-- The outcome `o` is a next state, and an effect of the MEMGRD command `i` on guard `h`. -/
def MgAnswers (i : Instr) (h : Nat) (s : State) (o : Out) : Prop := ∃ t, o = .next t ∧ MgEffect i h s t

section
variable {i : Instr} {h : Nat} {s : State} {g g' : Guard}

theorem KeepsGuards.refl (l : List Guard) : KeepsGuards i h l l := ⟨fun _ _ => rfl, fun _ _ _ => rfl⟩

/-- Writing guard `h` keeps the guards if it keeps that guard's payload words. -/
theorem KeepsGuards.set {l : List Guard} (hg : l[h]? = some g)
    (hw : ∀ j, (∀ v, i ≠ .mgPldwr h j v) → memRead h g' j = memRead h g j) : KeepsGuards i h l (l.set h g') where
  other k hk := List.getElem?_set_ne hk.symm
  word k j hj := by
    by_cases hk : k = h
    · subst hk
      have hlt : k < l.length := (List.getElem?_eq_some_iff.mp hg).1
      rw [List.getElem?_set_self hlt, hg, Option.map_some, Option.map_some, hw j hj]
    · rw [List.getElem?_set_ne (Ne.symm hk)]

/-- Writing guard `h` with its payload as it was keeps the guards. -/
theorem KeepsGuards.of_payload {l : List Guard} (hg : l[h]? = some g) (hp : g'.payload = g.payload) :
    KeepsGuards i h l (l.set h g') := .set hg fun j _ => memRead_congr hp h j

/-- MG.PLDWR keeps every word but the one it stores. -/
theorem KeepsGuards.memWrite {l : List Guard} (hg : l[h]? = some g) (index : Nat) (value : Word) :
    KeepsGuards (.mgPldwr h index value) h l (l.set h (memWrite g index value)) :=
  .set hg fun _ hj => memRead_memWrite_other (fun e => hj value (by rw [e])) h g value

theorem mgAnswers_raiseFault (cause : Cause) : MgAnswers i h s (raiseFault i cause s) := ⟨_, rfl, .fault cause⟩

theorem mgAnswers_finishWith (v : Word) : MgAnswers i h s (finishWith v s) := ⟨_, rfl, .answer v s.ie (.refl s.guards)⟩

theorem mgAnswers_onGuard {need : Setup} {body : Guard → Out}
    (hb : ∀ g, s.guards[h]? = some g → MgAnswers i h s (body g)) : MgAnswers i h s (onGuard need i h s body) := by
  obtain ⟨cause, hf⟩ | ⟨g, hg, -, he⟩ := onGuard_cases need i h s body
  · rw [hf]
    exact mgAnswers_raiseFault cause
  · rw [he]
    exact hb g hg

theorem mgAnswers_beginMasked (hg : s.guards[h]? = some g) (granted : Bool) :
    MgAnswers i h s (beginMasked h g granted s) := ⟨_, rfl, .answer _ _ (.of_payload hg rfl)⟩

theorem mgAnswers_completeMasked (hg : s.guards[h]? = some g) (ready : Bool) :
    MgAnswers i h s (completeMasked h g ready s) := ⟨_, rfl, .done _ (.of_payload hg rfl)⟩

theorem mgAnswers_completeUnmasked (hg : s.guards[h]? = some g) (ready : Bool) :
    MgAnswers i h s (completeUnmasked h g ready s) := ⟨_, rfl, .done s.ie (.of_payload hg rfl)⟩

end

/-- Every MEMGRD command answers a next state, and that is one of its effects. -/
theorem mgAnswers_exec {i : Instr} {h : Nat} {need : Setup} (hi : mgTarget i = some (h, need)) (s : State) :
    MgAnswers i h s (exec i s) := by
  cases i <;> cases hi
  case mgInit size =>
    show MgAnswers _ h s (execMgInit h size s)
    refine mgAnswers_onGuard fun g hg => ?_
    split
    · exact mgAnswers_finishWith _
    · exact ⟨_, rfl, .answer _ s.ie (.of_payload hg rfl)⟩
  case mgConfig dir => exact mgAnswers_onGuard fun g hg => ⟨_, rfl, .done s.ie (.of_payload hg rfl)⟩
  case mgBeginw | mgBeginr =>
    refine mgAnswers_onGuard fun g hg => ?_
    split
    · exact mgAnswers_beginMasked hg _
    · exact mgAnswers_finishWith _
  case mgComplw | mgComplr =>
    refine mgAnswers_onGuard fun g hg => ?_
    split
    · exact mgAnswers_completeMasked hg _
    · exact mgAnswers_completeUnmasked hg _
  case mgPldwr index value =>
    refine mgAnswers_onGuard fun g hg => ?_
    split
    · exact ⟨_, rfl, .done s.ie (.memWrite hg index value)⟩
    · exact mgAnswers_raiseFault _
  case mgPldrd index =>
    refine mgAnswers_onGuard fun g hg => ?_
    split
    · exact mgAnswers_finishWith _
    · exact mgAnswers_raiseFault _

section
variable {i : Instr} {h : Nat} {s t : State}

theorem mgEffect_of_exec {need : Setup} (hi : mgTarget i = some (h, need)) (hx : exec i s = .next t) : MgEffect i h s t := by
  obtain ⟨u, hu, he⟩ := mgAnswers_exec hi s
  cases hu.symm.trans hx
  exact he

/-- The fields a MEMGRD command never writes. -/
theorem MgEffect.frame (he : MgEffect i h s t) :
    t.cfg = s.cfg ∧ t.pstage = s.pstage ∧ t.insts = s.insts ∧ t.chans = s.chans ∧ t.sched = s.sched ∧
    t.irqPend = s.irqPend ∧ t.hiActive = s.hiActive ∧ t.ieAtEntry = s.ieAtEntry ∧ t.loDone = s.loDone := by
  cases he <;> simp

/-- Only a fault-stop writes the fault record, and it writes nothing else (R256). -/
theorem MgEffect.fault_or_work (he : MgEffect i h s t) :
    t.faulted = s.faulted ∧ t.faultCause = s.faultCause ∧ t.faultCmd = s.faultCmd ∧ t.faultCtx = s.faultCtx ∨
      t.guards = s.guards ∧ t.lo = s.lo ∧ t.hi = s.hi ∧ t.ie = s.ie := by
  cases he with
  | fault => exact .inr ⟨rfl, rfl, rfl, rfl⟩
  | done | answer => exact .inl (by simp)

theorem MgEffect.keepsGuards (he : MgEffect i h s t) : KeepsGuards i h s.guards t.guards := by
  cases he with
  | fault => exact .refl _
  | done _ hl | answer _ _ hl => simpa using hl

end

/-! ## The obligations -/

/-- Settles O36: the stored payload is that of `memWrite`, and a read of it follows by the read-after-write laws. -/
theorem payloadWrite : Obligations.PayloadWrite := by
  intro s h index value g hr
  refine ⟨fun hi => ⟨payloadStore g.payload index value, ?_, fun j => ?_, fun t => exec_mgPldrd_after_mgPldwr hr hi⟩,
    fun hi => (exec_mgPldwr_of_le hr hi value).trans (raiseFault_eq ..)⟩
  · exact (exec_mgPldwr_of_lt hr hi value).trans (finish_eq _)
  · show memRead h (memWrite g index value) j = _
    split
    · next hj => rw [hj, memRead_memWrite_same]
    · next hj => rw [memRead_memWrite_other hj]

/-- Settles O40: the cases of `MgEffect`; the programs and the other context as for every instruction (`Effect`). -/
theorem mgFrame : Obligations.MgFrame := by
  intro i s t h need hi hx
  have hm : MgEffect i h s t := mgEffect_of_exec hi hx
  have he : Effect i s t := exec_effect hx
  obtain ⟨hcfg, hpstage, hinsts, hchans, hsched, hirq, hact, hentry, hdone⟩ := hm.frame
  obtain ⟨hother, hword⟩ := hm.keepsGuards
  exact ⟨hcfg, hpstage, hinsts, hchans, hsched, hirq, hact, hentry, hdone, he.prog_eq .lo, he.prog_eq .hi,
    fun ha => he.ctxOf_other (c := .lo) (by simp [issuer, ha]), fun ha => he.ctxOf_other (c := .hi) (by simp [issuer, ha]),
    hm.fault_or_work, hother, hword⟩

/-- Settles O31: the two sides of the size check. -/
theorem mgInitBindsGuard : Obligations.MgInitBindsGuard := by
  intro s h size g hg
  have hx : execMgInit h size s = _ := onGuard_ready hg rfl
  exact ⟨fun hs => (hx.trans (if_neg (by omega))).trans (finishWith_eq _ _),
    fun hs => (hx.trans (if_pos hs)).trans (finishWith_eq _ _)⟩

/-- Settles O32: the command's own work on a bound guard. -/
theorem mgConfigSetsDirection : Obligations.MgConfigSetsDirection := fun _ _ _ _ hg hi =>
  (onGuard_ready hg (by simp [setupCheck, hi])).trans (finish_eq _)

/-- Settles O33: by the direction, which says whether the begin masks, and by the token, which says whether it is granted. -/
theorem beginWrite : Obligations.BeginWrite := by
  intro s h g hr
  refine ⟨fun hd hready => ?_, fun hd hready => ?_, fun hd => ?_⟩
  · simp [exec_mgBeginw_lowToHigh hr hd, hready, beginMasked_eq, boolWord]
  · simp [exec_mgBeginw_lowToHigh hr hd, hready, beginMasked_eq, boolWord]
  · rw [exec_mgBeginw_highToLow hr hd, beginUnmasked_eq]
    cases g.ready <;> rfl

/-- Settles O34: as O33, with the sides and the token exchanged. -/
theorem beginRead : Obligations.BeginRead := by
  intro s h g hr
  refine ⟨fun hd hready => ?_, fun hd hready => ?_, fun hd => ?_⟩
  · simp [exec_mgBeginr_highToLow hr hd, hready, beginMasked_eq, boolWord]
  · simp [exec_mgBeginr_highToLow hr hd, hready, beginMasked_eq, boolWord]
  · exact (exec_mgBeginr_lowToHigh hr hd).trans (beginUnmasked_eq _ _)

/-- Settles O35, by the two completes of a ready guard. -/
theorem completeMovesToken : Obligations.CompleteMovesToken := fun _ _ _ hr => ⟨exec_mgComplw hr, exec_mgComplr hr⟩

end Sys2Proof.Proofs

/-! SUPPORT. The statements of 42_pwm_config.md. Unbinding a channel is put once into the spec's words (`unbind_eq`,
`unbindOld_eq`), and so are the outcomes of PWM.PSET and PWM.CONFIG by their checks. What a PWM command can do to the state is
said once (`PwmEffect`, `pwmAnswers_exec`): the frame follows from a case split over it. A leg is an entry of State's `insts`
(R30). -/

namespace Sys2Proof.Proofs

open Machine Spec

/-! ## Unbinding a channel -/

/-- Unbinding channel `k + 1` writes its place alone. -/
theorem unboundAt_succ {l : List Channel} {k : Nat} {ch : Channel} (hk : l[k]? = some ch) :
    unboundAt (k + 1) l = l.set k { ch with bound := none } := by
  refine List.ext_getElem? fun j => ?_
  rw [unboundAt, List.getElem?_mapIdx]
  by_cases hj : j = k
  · subst hj
    have hlt : j < l.length := (List.getElem?_eq_some_iff.mp hk).1
    rw [List.getElem?_set_self hlt, hk, Option.map_some, if_pos rfl]
  · simp [hj, List.getElem?_set_ne (Ne.symm hj)]

/-- Unbinding a channel that does not exist changes nothing (log entry 12). -/
theorem unboundAt_of_none {l : List Channel} {c : Nat} (hc : chanAt l c = none) : unboundAt c l = l := by
  refine List.ext_getElem? fun j => ?_
  rw [unboundAt, List.getElem?_mapIdx]
  by_cases hj : j + 1 = c
  · subst hj
    rw [show l[j]? = none from hc, Option.map_none]
  · simp [hj]

/-- `channel(c).BOUND <- NONE` in the spec's words. -/
theorem unbind_eq (c : Nat) (s : State) : unbind c s = { s with chans := unboundAt c s.chans } := by
  unfold unbind modifyChan
  split
  · next ch hch =>
    cases c with
    | zero => simp [chan?_zero] at hch
    | succ k => rw [unboundAt_succ hch]; rfl
  · next hch => rw [unboundAt_of_none hch]

/-- Unbinding the old channel in the spec's words. -/
theorem unbindOld_eq (p : PwmInst) (keep : Nat) (s : State) : unbindOld p keep s =
    { s with chans := if p.conf = true ∧ p.ch.toNat ≠ keep then unboundAt p.ch.toNat s.chans else s.chans } := by
  simp only [unbindOld, unbind_eq, Bool.and_eq_true, bne_iff_ne]
  split <;> rfl

/-- There is no channel 0 to keep bound: the channel of a configured leg is unbound (R140). -/
theorem unbindOld_zero (p : PwmInst) (s : State) :
    unbindOld p 0 s = { s with chans := if p.conf then unboundAt p.ch.toNat s.chans else s.chans } := by
  rw [unbindOld_eq]
  by_cases hc : p.ch.toNat = 0
  · simp [hc, unboundAt_of_none (chan?_zero s)]
  · simp [hc]

/-- The channel that is kept is not unbound. -/
theorem chan?_unbindOld_keep (p : PwmInst) (keep : Nat) (s : State) : chan? (unbindOld p keep s) keep = chan? s keep := by
  unfold unbindOld
  split
  · next h =>
    rw [Bool.and_eq_true, bne_iff_ne] at h
    exact chan?_modifyChan_other h.2.symm _ s
  · rfl

/-! ## Staging -/

section
variable {s : State} {v : Nat}

theorem ctrModeOfValue_of_le (hv : v ≤ 1) : ctrModeOfValue v = some (if v = 0 then .up else .upDown) := by
  interval_cases v <;> rfl

theorem bitOfValue_of_le (hv : v ≤ 1) : bitOfValue v = some (decide (v = 1)) := by
  interval_cases v <;> rfl

theorem cmpLoadOfValue_of_le (hv : v ≤ 2) :
    cmpLoadOfValue v = some (if v = 0 then .zero else if v = 1 then .period else .zeroOrPeriod) := by
  interval_cases v <;> rfl

theorem countOfValue_of_le {least : Nat} (hl : least ≤ v) (hv : v ≤ 65535) :
    countOfValue least v = some (BitVec.ofNat 16 v) := if_pos ⟨hl, hv⟩

theorem ctrModeOfValue_of_lt (hv : 1 < v) : ctrModeOfValue v = none := by
  match v, hv with
  | n + 2, _ => rfl

theorem bitOfValue_of_lt (hv : 1 < v) : bitOfValue v = none := by
  match v, hv with
  | n + 2, _ => rfl

theorem cmpLoadOfValue_of_lt (hv : 2 < v) : cmpLoadOfValue v = none := by
  match v, hv with
  | n + 3, _ => rfl

theorem countOfValue_eq_none {least : Nat} (hv : v < least ∨ 65535 < v) : countOfValue least v = none :=
  if_neg (by omega)

/-- No parameter field has an id above 6 (R26). -/
theorem stageParam_of_field_lt {field : Nat} (hf : 6 < field) (p : Params) (v : Nat) : stageParam p field v = none := by
  match field, hf with
  | n + 7, _ => rfl

/-- PWM.PSET of a legal field and value stages it (R142). -/
theorem exec_pwmPset_of_some {field : Nat} {p : Params} (hp : stageParam s.pstage field v = some p) :
    exec (.pwmPset field v) s = .next (returned { s with pstage := p }) := by
  simp only [exec, execPwmPset, hp]
  exact finish_eq _

/-- PWM.PSET of any other field or value faults (R142). -/
theorem exec_pwmPset_of_none {field : Nat} (hp : stageParam s.pstage field v = none) :
    exec (.pwmPset field v) s = .next (stopped s (encode (.pwmPset field v)) 0x0B) := by
  simp only [exec, execPwmPset, hp]
  exact raiseFault_eq ..

end

/-! ## PWM.CONFIG by its checks -/

section
variable {s : State} {h c : Nat} {p : PwmInst} {cl : Channel}

/-- A command that needs a bound leg does its own work on one (R140). -/
theorem onInst_of_bound (hp : s.insts[h]? = some p) (hi : p.init = true) (i : Instr) (body : PwmInst → Out) :
    onInst .bound i h s body = body p :=
  onInst_ready hp (by simp [setupCheck, hi])

theorem exec_pwmConfig_of_none (hp : s.insts[h]? = some p) (hi : p.init = true) (hc : chan? s c = none) :
    exec (.pwmConfig h c) s = raiseFault (.pwmConfig h c) .badChannel s := by
  simp only [exec, execPwmConfig, onInst_of_bound hp hi, hc]

theorem exec_pwmConfig_of_alias (hp : s.insts[h]? = some p) (hi : p.init = true) (hc : chan? s c = some cl)
    (hb : bindable cl h = false) : exec (.pwmConfig h c) s = raiseFault (.pwmConfig h c) .channelAlias s := by
  simp [exec, execPwmConfig, onInst_of_bound hp hi, hc, hb]

theorem exec_pwmConfig_of_bindable (hp : s.insts[h]? = some p) (hi : p.init = true) (hc : chan? s c = some cl)
    (hb : bindable cl h = true) : exec (.pwmConfig h c) s =
      finish (setInst h { p with conf := true, ch := BitVec.ofNat 16 c, nomPrd := s.pstage.period, seq := s.pstage.seq }
        (setChan c (configuredCluster s.cfg s.pstage h cl) (unbindOld p c s))) := by
  simp [exec, execPwmConfig, onInst_of_bound hp hi, hc, hb]

theorem bindable_iff : bindable cl h = true ↔ cl.bound = none ∨ cl.bound = some h := by simp [bindable]

/-- The compare of duty 0, with full scale written out (R144, R161, R162). -/
theorem dutyZero_eq (P : Params) : dutyZero P = if P.seq.getLsbD 0 then 0
    else BitVec.ofNat 16 (min (if P.ctrMode = .upDown then P.period.toNat else P.period.toNat + 1) 65535) := by
  unfold dutyZero
  cases P.ctrMode <;> rfl

end

/-! ## What a PWM command can do -/

/-- The clusters a PWM command `i` on leg `h` may write: the leg's own, and the one PWM.CONFIG names. -/
def OwnCluster (i : Instr) (h : Nat) (s : State) (c : Nat) : Prop :=
  (∃ p, s.insts[h]? = some p ∧ p.ch.toNat = c) ∨ ∃ k, i = .pwmConfig k c

/-- The levels of a cluster's two pins. -/
def pinLevels (cl : Channel) : Pin × Pin := (cl.pinA, cl.pinB)

/-- The state is reached from `s` by writes that a PWM command `i` makes outside the contexts' registers: of leg `h`, and of its
clusters with their pins as they were. -/
inductive LegWrites (i : Instr) (h : Nat) (s : State) : State → Prop
  | refl : LegWrites i h s s
  | inst {u : State} (p : PwmInst) : LegWrites i h s u → LegWrites i h s (setInst h p u)
  | chan {u : State} {c : Nat} {old ch : Channel} (hc : OwnCluster i h s c) (hold : chan? u c = some old)
    (hpin : pinLevels ch = pinLevels old) : LegWrites i h s u → LegWrites i h s (setChan c ch u)

/-- The next state of a PWM command `i` on leg `h`, one case for each way it can end (R21, R240, R256). -/
inductive PwmEffect (i : Instr) (h : Nat) (s : State) : State → Prop
  | fault (cause : Cause) : PwmEffect i h s (faultStop (encode i) cause s)
  | done {u : State} (hu : LegWrites i h s u) : PwmEffect i h s (advance u)
  | answer {u : State} (v : Word) (hu : LegWrites i h s u) : PwmEffect i h s (advance (setRes v u))

/-- If the outcome `o` is a next state, that state is an effect of the PWM command `i` on leg `h`. -/
def PwmAnswers (i : Instr) (h : Nat) (s : State) (o : Out) : Prop := ∀ t, o = .next t → PwmEffect i h s t

section
variable {i : Instr} {h : Nat} {s t u : State} {p : PwmInst} {cl cl' : Channel}

theorem PwmAnswers.next (he : PwmEffect i h s t) : PwmAnswers i h s (.next t) := by
  rintro _ ⟨⟩
  exact he

theorem pwmAnswers_raiseFault (cause : Cause) : PwmAnswers i h s (raiseFault i cause s) := .next (.fault cause)

theorem pwmAnswers_finishWith (v : Word) : PwmAnswers i h s (finishWith v s) := .next (.answer v .refl)

theorem OwnCluster.of_inst (hp : s.insts[h]? = some p) : OwnCluster i h s p.ch.toNat := .inl ⟨p, hp, rfl⟩

/-- A command that writes its own cluster and keeps the pins completes. -/
theorem pwmAnswers_finishCluster (hp : s.insts[h]? = some p) (hcl : chan? u p.ch.toNat = some cl)
    (hpin : pinLevels cl' = pinLevels cl) (hu : LegWrites i h s u) : PwmAnswers i h s (finishCluster p cl' u) :=
  .next (.done (.chan (.of_inst hp) hcl hpin hu))

/-- Unbinding the leg's old channel writes a cluster of its own, and no pin. -/
theorem LegWrites.unbindOld (hp : s.insts[h]? = some p) (keep : Nat) (hu : LegWrites i h s u) :
    LegWrites i h s (unbindOld p keep u) := by
  unfold Machine.unbindOld unbind modifyChan
  split
  · split
    · next old hold => exact .chan (.of_inst hp) hold rfl hu
    · exact hu
  · exact hu

theorem pwmAnswers_onInst {need : Setup} {body : PwmInst → Out}
    (hb : ∀ p, s.insts[h]? = some p → PwmAnswers i h s (body p)) : PwmAnswers i h s (onInst need i h s body) := by
  obtain ⟨cause, hf⟩ | ⟨p, hp, -, he⟩ := onInst_cases need i h s body
  · rw [hf]
    exact pwmAnswers_raiseFault cause
  · rw [he]
    exact hb p hp

theorem pwmAnswers_onCluster {body : PwmInst → Channel → Out}
    (hb : ∀ p cl, s.insts[h]? = some p → chan? s p.ch.toNat = some cl → PwmAnswers i h s (body p cl)) :
    PwmAnswers i h s (onCluster i h s body) := by
  obtain ⟨cause, hf⟩ | ⟨p, -, -, -, -, hn⟩ | ⟨p, cl, hp, -, -, hcl, he⟩ := onCluster_cases i h s body
  · rw [hf]
    exact pwmAnswers_raiseFault cause
  · rw [hn]
    rintro _ ⟨⟩
  · rw [he]
    exact hb p cl hp hcl

/-! ### No command writes a pin -/

theorem pinLevels_writePeriod (c : Config) (n : Half) (cl : Channel) : pinLevels (writePeriod c n cl) = pinLevels cl := by
  unfold writePeriod
  split <;> rfl

theorem pinLevels_immediateForce (cl : Channel) : pinLevels (immediateForce cl) = pinLevels cl := by
  unfold immediateForce
  split <;> rfl

theorem pwmAnswers_onTransition {change : PwmInst → Channel → Channel}
    (hpin : ∀ p cl, pinLevels (change p cl) = pinLevels cl) : PwmAnswers i h s (onTransition i h s change) := by
  refine pwmAnswers_onCluster fun p cl hp hcl => ?_
  split
  · exact pwmAnswers_finishCluster hp hcl (hpin p cl) .refl
  · exact pwmAnswers_raiseFault _

/-! ### The commands -/

theorem pwmAnswers_pwmInit (size : Nat) : PwmAnswers (.pwmInit h size) h s (execPwmInit h size s) := by
  refine pwmAnswers_onInst fun p hp => ?_
  split
  · exact pwmAnswers_finishWith _
  · exact .next (.answer _ (.inst _ (.unbindOld hp 0 .refl)))

theorem pwmAnswers_pwmConfig (c : Nat) : PwmAnswers (.pwmConfig h c) h s (execPwmConfig h c s) := by
  refine pwmAnswers_onInst fun p hp => ?_
  split
  · exact pwmAnswers_raiseFault _
  · next cl hcl =>
    split
    · have hcl' : chan? (unbindOld p c s) c = some cl := (chan?_unbindOld_keep p c s).trans hcl
      exact .next (.done (.inst _ (.chan (.inr ⟨h, rfl⟩) hcl' rfl (.unbindOld hp c .refl))))
    · exact pwmAnswers_raiseFault _

theorem pwmAnswers_pwmScaleprd (factor : Word) :
    PwmAnswers (.pwmScaleprd h factor) h s (execPwmScaleprd h factor s) := by
  refine pwmAnswers_onCluster fun p cl hp hcl => ?_
  split
  · exact pwmAnswers_raiseFault _
  · exact pwmAnswers_finishCluster hp hcl (pinLevels_writePeriod ..) .refl

theorem pwmAnswers_pwmSetseq (seq : Nat) : PwmAnswers (.pwmSetseq h seq) h s (execPwmSetseq h seq s) := by
  refine pwmAnswers_onCluster fun p cl hp hcl => ?_
  split
  · exact pwmAnswers_raiseFault _
  · exact pwmAnswers_finishCluster (cl := cl) hp hcl rfl (.inst _ .refl)

/-- Every next state of a PWM command with a handle is one of its effects. -/
theorem pwmAnswers_exec {need : Setup} (hi : pwmTarget i = some (h, need)) (s : State) :
    PwmAnswers i h s (exec i s) := by
  cases i <;> cases hi
  case pwmInit size => exact pwmAnswers_pwmInit size
  case pwmConfig c => exact pwmAnswers_pwmConfig c
  case pwmScaleprd factor => exact pwmAnswers_pwmScaleprd factor
  case pwmSetseq seq => exact pwmAnswers_pwmSetseq seq
  case pwmGetfull | pwmGetctr | pwmGetdir | pwmGetseq | pwmIsen =>
    exact pwmAnswers_onCluster fun _ _ _ _ => pwmAnswers_finishWith _
  case pwmSetduty | pwmSetcmpph | pwmSetphase | pwmSetdt | pwmSettzsafe | pwmEnout | pwmDisout =>
    exact pwmAnswers_onCluster fun _ cl hp hcl => pwmAnswers_finishCluster (cl := cl) hp hcl rfl .refl
  case pwmSetpassive | pwmSetoper | pwmPrepare =>
    exact pwmAnswers_onTransition fun _ _ => pinLevels_immediateForce _

/-! ### What a PWM command leaves unchanged -/

/-- Beside the instances and the clusters nothing is written. -/
theorem LegWrites.frame (hu : LegWrites i h s u) : u = { s with insts := u.insts, chans := u.chans } := by
  induction hu with
  | refl => rfl
  | inst p _ ih => exact congrArg (setInst h p) ih
  | chan _ _ _ _ ih => exact congrArg (setChan _ _) ih

theorem LegWrites.inst_other (hu : LegWrites i h s u) {k : Nat} (hk : k ≠ h) : u.insts[k]? = s.insts[k]? := by
  induction hu with
  | refl => rfl
  | inst p _ ih => rw [inst_setInst_other hk, ih]
  | chan _ _ _ _ ih => exact ih

theorem LegWrites.cluster_other (hu : LegWrites i h s u) {d : Nat} (hd : ¬ OwnCluster i h s d) : chan? u d = chan? s d := by
  induction hu with
  | refl => rfl
  | inst _ _ ih => exact ih
  | @chan u c _ _ hc _ _ _ ih =>
    have hne : d ≠ c := by
      rintro rfl
      exact hd hc
    rw [chan?_setChan_other hne, ih]

theorem LegWrites.pins (hu : LegWrites i h s u) (d : Nat) :
    (chan? u d).map pinLevels = (chan? s d).map pinLevels := by
  induction hu with
  | refl => rfl
  | inst _ _ ih => exact ih
  | @chan u c old ch _ hold hpin _ ih =>
    rw [← ih]
    by_cases hd : d = c
    · rw [hd, chan?_setChan_same hold, hold, Option.map_some, Option.map_some, hpin]
    · rw [chan?_setChan_other hd]

/-- The fields a PWM command never writes. -/
theorem PwmEffect.frame (he : PwmEffect i h s t) :
    t.cfg = s.cfg ∧ t.pstage = s.pstage ∧ t.guards = s.guards ∧ t.sched = s.sched ∧ t.ie = s.ie ∧
    t.irqPend = s.irqPend ∧ t.hiActive = s.hiActive ∧ t.ieAtEntry = s.ieAtEntry ∧ t.loDone = s.loDone := by
  cases he with
  | fault => simp
  | done hu | answer _ hu =>
    rw [hu.frame]
    simp

/-- Only a fault-stop writes the fault record, and it writes nothing else (R256). -/
theorem PwmEffect.fault_or_work (he : PwmEffect i h s t) :
    t.faulted = s.faulted ∧ t.faultCause = s.faultCause ∧ t.faultCmd = s.faultCmd ∧ t.faultCtx = s.faultCtx ∨
      t.insts = s.insts ∧ t.chans = s.chans ∧ t.lo = s.lo ∧ t.hi = s.hi := by
  cases he with
  | fault => exact .inr ⟨rfl, rfl, rfl, rfl⟩
  | done hu | answer _ hu =>
    left
    rw [hu.frame]
    simp

/-- The banks a PWM command leaves are those its writes leave. -/
theorem PwmEffect.banks (he : PwmEffect i h s t) : ∃ u, LegWrites i h s u ∧ t.insts = u.insts ∧ t.chans = u.chans := by
  cases he with
  | fault => exact ⟨s, .refl, rfl, rfl⟩
  | done hu | answer _ hu => exact ⟨_, hu, by simp, by simp⟩

end

/-! ## The obligations -/

/-- Settles O42: each legal value is one the field's table gives, and no other is. -/
theorem parameterStaging : Obligations.ParameterStaging := by
  refine ⟨fun s => finish_eq _, fun s v => ⟨fun hv => ?_, fun hl hv => ?_, fun hv => ?_, fun hv => ?_, fun hv => ?_,
    fun hv => ?_, fun hv => ?_⟩, fun s field v hbad => exec_pwmPset_of_none ?_⟩
  · exact exec_pwmPset_of_some (congrArg (Option.map _) (ctrModeOfValue_of_le hv))
  · exact exec_pwmPset_of_some (congrArg (Option.map _) (countOfValue_of_le hl hv))
  · exact exec_pwmPset_of_some (congrArg (Option.map _) (countOfValue_of_le v.zero_le hv))
  · exact exec_pwmPset_of_some (congrArg (Option.map _) (countOfValue_of_le v.zero_le hv))
  · exact exec_pwmPset_of_some (congrArg (Option.map _) (bitOfValue_of_le hv))
  · exact exec_pwmPset_of_some (if_pos hv)
  · exact exec_pwmPset_of_some (congrArg (Option.map _) (cmpLoadOfValue_of_le hv))
  · obtain hf | ⟨rfl, hv⟩ | ⟨rfl, hv⟩ | ⟨rfl, hv⟩ | ⟨rfl, hv⟩ | ⟨rfl, hv⟩ | ⟨rfl, hv⟩ | ⟨rfl, hv⟩ := hbad
    · exact stageParam_of_field_lt hf _ _
    · exact congrArg (Option.map _) (ctrModeOfValue_of_lt hv)
    · exact congrArg (Option.map _) (countOfValue_eq_none (by omega))
    · exact congrArg (Option.map _) (countOfValue_eq_none (.inr hv))
    · exact congrArg (Option.map _) (countOfValue_eq_none (.inr hv))
    · exact congrArg (Option.map _) (bitOfValue_of_lt hv)
    · exact if_neg (by omega)
    · exact congrArg (Option.map _) (cmpLoadOfValue_of_lt hv)

/-- Settles O43: the command's own work on a channel it may bind, with the unbinding and the compare of duty 0 written out. -/
theorem pwmConfigEffects : Obligations.PwmConfigEffects := by
  intro s h c p cl hp hi hcl hb
  rw [exec_pwmConfig_of_bindable hp hi (c := c + 1) hcl (bindable_iff.mpr hb), finish_eq, unbindOld_eq, configuredCluster,
    dutyZero_eq, hi]
  rfl

/-- Settles O54: the cases of `PwmEffect`; the programs and the other context as for every instruction (`Effect`). -/
theorem pwmFrame : Obligations.PwmFrame := by
  intro i s t h need hi hx
  have hm : PwmEffect i h s t := pwmAnswers_exec hi s t hx
  have he : Effect i s t := exec_effect hx
  obtain ⟨hcfg, hpstage, hguards, hsched, hie, hirq, hact, hentry, hdone⟩ := hm.frame
  obtain ⟨u, hu, hinsts, hchans⟩ := hm.banks
  have hchan (d : Nat) : chan? t d = chan? u d := by rw [chan?, hchans, chan?]
  refine ⟨hcfg, hpstage, hguards, hsched, hie, hirq, hact, hentry, hdone, he.prog_eq .lo, he.prog_eq .hi,
    fun ha => he.ctxOf_other (c := .lo) (by simp [issuer, ha]), fun ha => he.ctxOf_other (c := .hi) (by simp [issuer, ha]),
    hm.fault_or_work, fun k j => ?_, fun k hk => ?_, fun p d hp hd hnamed => ?_, fun d => ?_⟩
  · rw [Memory.word, hguards, Memory.word]
  · rw [hinsts, hu.inst_other hk]
  · have hown : ¬ OwnCluster i h s d := by
      rintro (⟨p', hp', rfl⟩ | ⟨k, hk⟩)
      · cases hp'.symm.trans hp
        exact hd rfl
      · exact hnamed k hk
    rw [hchan, hu.cluster_other hown]
  · rw [hchan]
    exact hu.pins d

/-- Settles O41: the two sides of the size check. -/
theorem pwmInitBindsInstance : Obligations.PwmInitBindsInstance := by
  intro s h size p hp
  have hx : execPwmInit h size s = _ := onInst_ready hp rfl
  refine ⟨fun hs => ?_, fun hs => (hx.trans (if_pos hs)).trans (finishWith_eq _ _)⟩
  refine (hx.trans (if_neg (by omega))).trans ?_
  rw [unbindOld_zero, finishWith_eq]
  rfl

/-- Settles O44: the channel ids outside the bank, and a channel the leg may not bind. -/
theorem pwmConfigFaults : Obligations.PwmConfigFaults := by
  refine fun s h p hp hi => ⟨fun c hc => ?_, fun c cl k hcl hk hne => ?_⟩
  · have hnone : chan? s c = none := by
      rw [← Option.not_isSome_iff_eq_none, chan?_isSome]
      omega
    exact exec_pwmConfig_of_none hp hi hnone
  · have hb : bindable cl h = false := by simp [bindable, hk, hne]
    exact exec_pwmConfig_of_alias hp hi (c := c + 1) hcl hb

end Sys2Proof.Proofs

/-! SUPPORT. The statements of 43_pwm_modulation.md. A command on a configured leg does its own work (`onCluster_of_leg`), and its
two ends are put once into the spec's words (`onCluster_finishCluster`, `onCluster_finishWith`). A numerator is tied to the
rational it stands for (`ofNum`, `floorQ_eq_floor`), so that duty, phase and period are read in exact rationals (R12, log entry
13). -/

namespace Sys2Proof.Proofs

open Machine Spec

/-! ## Commands on a configured leg -/

section
variable {s : State} {h : Nat} {p : PwmInst} {cl : Channel}

/-- A channel number other than 0 names a place in the bank (R35). -/
theorem exists_place_of_ne_zero (hc : p.ch ≠ 0#16) : ∃ k, p.ch.toNat = k + 1 :=
  Nat.exists_eq_succ_of_ne_zero fun hz => hc (BitVec.eq_of_toNat_eq hz)

/-- The cluster of a leg, as the model looks it up (R140). -/
theorem chan?_of_leg (hl : Leg s h p cl) : chan? s p.ch.toNat = some cl := by
  obtain ⟨k, hk⟩ := exists_place_of_ne_zero hl.channel
  have hcl : s.chans[p.ch.toNat - 1]? = some cl := hl.cluster
  rw [hk] at hcl ⊢
  exact hcl

/-- A command on a configured leg does its own work (R140). -/
theorem onCluster_of_leg (hl : Leg s h p cl) (i : Instr) (body : PwmInst → Channel → Out) :
    onCluster i h s body = body p cl :=
  onCluster_ready hl.found hl.init hl.conf (chan?_of_leg hl)

/-- Writing a channel that is not 0, in the spec's words. -/
theorem setChan_eq_withCluster (hc : p.ch ≠ 0#16) (cl : Channel) (s : State) :
    setChan p.ch.toNat cl s = withCluster s p cl := by
  obtain ⟨k, hk⟩ := exists_place_of_ne_zero hc
  rw [withCluster, hk]
  rfl

theorem finishCluster_eq (hc : p.ch ≠ 0#16) (cl : Channel) (s : State) :
    finishCluster p cl s = .next (returned (withCluster s p cl)) := by
  rw [finishCluster, setChan_eq_withCluster hc, finish_eq]

/-- A command that only writes its cluster leaves what `change` makes of it, and `PC`. -/
theorem onCluster_finishCluster (hl : Leg s h p cl) (i : Instr) (change : PwmInst → Channel → Channel) :
    onCluster i h s (fun p cl => finishCluster p (change p cl) s) = .next (returned (withCluster s p (change p cl))) :=
  (onCluster_of_leg hl _ _).trans (finishCluster_eq hl.channel _ s)

/-- A command that only reads its leg leaves `value` in `RES`, and `PC`. -/
theorem onCluster_finishWith (hl : Leg s h p cl) (i : Instr) (value : PwmInst → Channel → Word) :
    onCluster i h s (fun p cl => finishWith (value p cl) s) = .next (answered (value p cl) s) :=
  (onCluster_of_leg hl _ _).trans (finishWith_eq s _)

/-- The model's full scale is the spec's (R160, R161). -/
theorem clusterFullScale_eq (cl : Channel) : clusterFullScale cl = fullScaleOf cl := by
  unfold clusterFullScale fullScale fullScaleOf
  cases cl.ctrMode <;> rfl

end

/-! ## Numerators and the rationals they stand for -/

/-- The rational a numerator over 65536 stands for (R12). -/
def ofNum (n : Int) : ℚ := n / 65536

theorem ofNum_qNum (w : Word) : ofNum (qNum w) = q w := rfl

theorem ofNum_zero : ofNum 0 = 0 := by simp [ofNum]

theorem ofNum_qOne : ofNum qOne = 1 := by simp [ofNum, qOne]

theorem ofNum_sub (m n : Int) : ofNum (m - n) = ofNum m - ofNum n := by
  rw [ofNum, ofNum, ofNum, Int.cast_sub, sub_div]

theorem ofNum_mul (m n : Int) : ofNum (m * n) = m * ofNum n := by
  rw [ofNum, ofNum, Int.cast_mul, mul_div_assoc]

theorem ofNum_le_ofNum {m n : Int} : ofNum m ≤ ofNum n ↔ m ≤ n := by
  rw [ofNum, ofNum, div_le_div_iff_of_pos_right (by norm_num), Int.cast_le]

theorem ofNum_monotone : Monotone ofNum := fun _ _ => ofNum_le_ofNum.mpr

/-- The model's floor of a numerator is the floor of the rational it stands for (R12). -/
theorem floorQ_eq_floor (n : Int) : floorQ n = ⌊ofNum n⌋ := (Rat.floor_intCast_div_natCast n 65536).symm

theorem q_nonpos_iff (w : Word) : q w ≤ 0 ↔ qNum w ≤ 0 := by
  rw [← ofNum_qNum, ← ofNum_zero, ofNum_le_ofNum]

theorem one_le_q_iff (w : Word) : 1 ≤ q w ↔ qOne ≤ qNum w := by
  rw [← ofNum_qNum, ← ofNum_qOne, ofNum_le_ofNum]

theorem q_neg_iff (w : Word) : q w < 0 ↔ qNum w < 0 := by
  rw [← not_le, ← not_le, ← ofNum_qNum, ← ofNum_zero, ofNum_le_ofNum]

/-! ## The compare of a duty -/

/-- The clamped numerator of a duty stands for the clamped duty (R162). -/
theorem ofNum_clampInt_unit (w : Word) : ofNum (clampInt (qNum w) 0 qOne) = clampUnit (q w) := by
  rw [clampInt, ofNum_monotone.map_min, ofNum_monotone.map_max, ofNum_qNum, ofNum_zero, ofNum_qOne, clampUnit]

/-- The compare count in exact rationals (R162). -/
theorem dutyCount_eq (seq : BitVec 2) (fs : Nat) (duty : Word) : dutyCount seq fs duty =
    (min ⌊(if seq.getLsbD 0 then clampUnit (q duty) else 1 - clampUnit (q duty)) * (fs : ℚ)⌋ 65535).toNat := by
  have hcut (n : Int) : min n.toNat 65535 = (min n 65535).toNat := by omega
  rw [dutyCount, hcut, floorQ_eq_floor, mul_comm, ofNum_mul, Int.cast_natCast, mul_comm, seqOdd, apply_ite ofNum, ofNum_sub,
    ofNum_qOne, ofNum_clampInt_unit]

/-! ## The phase registers -/

/-- The numerator of a phase stands for the phase, with those outside [0,1) collapsed to 0 (R164, C1). -/
theorem ofNum_phaseNum (phase : Word) :
    ofNum (phaseNum phase) = if q phase < 0 ∨ 1 ≤ q phase then 0 else q phase := by
  rw [phaseNum, apply_ite ofNum, ofNum_zero, ofNum_qNum]
  simp only [q_neg_iff, one_le_q_iff, ge_iff_le]

section
variable {P : Nat} {phase : Word} {ph : ℚ}

/-- The model's test for the first half of the period, in rationals. -/
theorem phaseNum_le_half_iff (hph : ofNum (phaseNum phase) = ph) : phaseNum phase * 2 ≤ qOne ↔ ph ≤ 1 / 2 := by
  rw [← ofNum_le_ofNum, mul_comm, ofNum_mul, hph, ofNum_qOne, le_div_iff₀' two_pos, Int.cast_ofNat]

/-- Symmetric mode, up to one half: forward (R164). -/
theorem phaseRegisters_forward (hph : ofNum (phaseNum phase) = ph) (hle : ph ≤ 1 / 2) :
    phaseRegisters .upDown P phase = (⌊(P : ℚ) * ph * 2⌋.toNat, true) := by
  have hfloor : floorQ (P * phaseNum phase * 2) = ⌊(P : ℚ) * ph * 2⌋ := by
    rw [floorQ_eq_floor, mul_comm, ofNum_mul, ofNum_mul, hph, mul_comm, Int.cast_natCast, Int.cast_ofNat]
  rw [phaseRegisters, if_pos ((phaseNum_le_half_iff hph).mpr hle), hfloor]

/-- Symmetric mode, above one half: folded back, in reverse (R164). -/
theorem phaseRegisters_reverse (hph : ofNum (phaseNum phase) = ph) (hlt : ¬ ph ≤ 1 / 2) :
    phaseRegisters .upDown P phase = (⌊(P : ℚ) * (1 - ph) * 2⌋.toNat, false) := by
  have hfloor : floorQ (P * (qOne - phaseNum phase) * 2) = ⌊(P : ℚ) * (1 - ph) * 2⌋ := by
    rw [floorQ_eq_floor, mul_comm, ofNum_mul, ofNum_mul, ofNum_sub, ofNum_qOne, hph, mul_comm, Int.cast_natCast,
      Int.cast_ofNat]
  rw [phaseRegisters, if_neg (mt (phaseNum_le_half_iff hph).mp hlt), hfloor]

/-- Sawtooth mode: the complement on full scale, and 0 where that is past the period (R164). -/
theorem phaseRegisters_sawtooth (hph : ofNum (phaseNum phase) = ph) : phaseRegisters .up P phase =
    (if (⌊((P : ℚ) + 1) * (1 - ph)⌋ : ℚ) > P then 0 else ⌊((P : ℚ) + 1) * (1 - ph)⌋.toNat, true) := by
  have hfloor : floorQ ((P + 1) * (qOne - phaseNum phase)) = ⌊((P : ℚ) + 1) * (1 - ph)⌋ := by
    rw [floorQ_eq_floor, ofNum_mul, ofNum_sub, ofNum_qOne, hph, Int.cast_add, Int.cast_natCast, Int.cast_one]
  have hpast (n : Int) : n.toNat > P ↔ (n : ℚ) > P := by
    rw [gt_iff_lt, Int.lt_toNat, gt_iff_lt, ← Int.cast_lt (R := ℚ), Int.cast_natCast]
  simp only [phaseRegisters, hfloor, hpast]

end

/-! ## The scaled period -/

/-- The scaled period in exact rationals (R165, C6). -/
theorem scaledPeriod_eq (m : CtrMode) (N : Nat) (factor : Word) : scaledPeriod m N factor =
    (min (max ⌊if m = .upDown then (N : ℚ) * q factor else ((N : ℚ) + 1) * q factor - 1⌋ 1) 65535).toNat := by
  cases m with
  | upDown => rw [scaledPeriod, floorQ_eq_floor, ofNum_mul, ofNum_qNum, Int.cast_natCast, clampInt, if_pos rfl]
  | up =>
    rw [scaledPeriod, floorQ_eq_floor, ofNum_sub, ofNum_mul, ofNum_qNum, ofNum_qOne, Int.cast_add, Int.cast_natCast,
      Int.cast_one, clampInt, if_neg (by decide)]

/-- The period write, with the Immediate load as a choice of the active period (R165). -/
theorem writePeriod_eq (c : Config) (n : Half) (cl : Channel) : writePeriod c n cl =
    { cl with prdSh := n, prd := if c.prdLoad = .immediate then n else cl.prd } := by
  unfold writePeriod
  cases c.prdLoad <;> rfl

/-! ## The obligations -/

/-- Settles O45: the compare that a configured leg is given, read in rationals. -/
theorem dutyCompare : Obligations.DutyCompare := by
  intro s h duty p cl hl d
  refine (onCluster_finishCluster hl _ _).trans ?_
  rw [dutyCount_eq, clusterFullScale_eq]

/-- Settles O46: by the counter mode, and by the half the phase lies in. -/
theorem phaseRegister : Obligations.PhaseRegister := by
  intro s h phase p cl hl ph P
  have hph : ofNum (phaseNum phase) = ph := ofNum_phaseNum phase
  refine ⟨fun hm hle => ?_, fun hm hlt => ?_, fun hm => ?_⟩ <;> refine (onCluster_finishCluster hl _ _).trans ?_
  · rw [hm, phaseRegisters_forward hph hle]
  · rw [hm, phaseRegisters_reverse hph hlt]
  · rw [hm, phaseRegisters_sawtooth hph, apply_ite (BitVec.ofNat 16)]
    rfl

/-- Settles O47: the two sides of the factor check. -/
theorem periodScaling : Obligations.PeriodScaling := by
  intro s h factor p cl hl N x P'
  refine ⟨fun hq => (onCluster_of_leg hl _ _).trans ?_, fun hq => (onCluster_of_leg hl _ _).trans ?_⟩
  · rw [if_neg (mt (q_nonpos_iff factor).mpr (not_le.mpr hq)), finishCluster_eq hl.channel, writePeriod_eq, scaledPeriod_eq]
  · exact if_pos ((q_nonpos_iff factor).mp hq)

/-- Settles O48: each read answers with the value it names. -/
theorem pwmReads : Obligations.PwmReads := by
  intro s h p cl hl
  refine ⟨?_, ?_, ?_, ?_, ?_⟩ <;> refine (onCluster_finishWith hl _ _).trans ?_
  · rw [clusterFullScale_eq]
  · rw [BitVec.ofNat_toNat]
  · rfl
  · rw [BitVec.ofNat_toNat]
  · cases cl.tzOst <;> rfl

/-- Settles O50: each command leaves what its rule makes of the cluster. -/
theorem clusterWrites : Obligations.ClusterWrites := by
  intro s h p cl hl
  refine ⟨fun count => ?_, fun red fed => ?_, ?_, ?_, ?_⟩ <;> refine (onCluster_finishCluster hl _ _).trans ?_
  · rw [clusterFullScale_eq]
  · rfl
  · rfl
  · rfl
  · rfl

end Sys2Proof.Proofs

/-! SUPPORT. The statements of 44_pwm_sequence.md. PWM.SETSEQ on a configured leg has one equation for each side of its range
check. -/

namespace Sys2Proof.Proofs

open Machine Spec

/-! ## PWM.SETSEQ by its range check -/

section
variable {s : State} {h seq : Nat} {p : PwmInst} {cl : Channel}

/-- A sequence of R180's range is stored, and the cluster takes the table's actions for it at once. -/
theorem exec_pwmSetseq_of_le (hl : Leg s h p cl) (hq : seq ≤ 3) : exec (.pwmSetseq h seq) s =
    finishCluster p { cl with aqa := aqActions s.cfg.aqTable (BitVec.ofNat 2 seq) cl.ctrMode }
      (setInst h { p with seq := BitVec.ofNat 2 seq } s) :=
  (onCluster_of_leg hl _ _).trans (if_neg (not_lt.mpr hq))

/-- A sequence above 3 is refused (R180). -/
theorem exec_pwmSetseq_of_lt (hl : Leg s h p cl) (hq : 3 < seq) :
    exec (.pwmSetseq h seq) s = raiseFault (.pwmSetseq h seq) .badSequence s :=
  (onCluster_of_leg hl _ _).trans (if_pos hq)

end

/-! ## The obligation -/

/-- Settles O49: the two sides of the range check, each end put into the spec's words. -/
theorem setSequence : Obligations.SetSequence := by
  refine fun s h seq p cl hl => ⟨fun hq => ?_, fun hq => ?_⟩
  · exact (exec_pwmSetseq_of_le hl hq).trans (finishCluster_eq hl.channel _ _)
  · exact (exec_pwmSetseq_of_lt hl hq).trans (raiseFault_eq ..)

end Sys2Proof.Proofs

/-! SUPPORT. The statements of 45_pwm_output.md on the passive and operational transition (R195 to R200). A transition command on
a configured leg has one equation for each side of the feature check (`onTransition_supported`, `onTransition_unsupported`), and
what it makes of the active force is said once (`immediateForce_eq`). -/

namespace Sys2Proof.Proofs

open Machine Spec

/-! ## The clusters of a transition, in the spec's words -/

/-- The active force takes the shadow when its load is Immediate, and stays else. -/
theorem immediateForce_eq (cl : Channel) :
    immediateForce cl = { cl with csf := if cl.csfLoad = .immediate then cl.csfSh else cl.csf } := by
  unfold immediateForce
  split
  next hload => rw [if_pos hload]
  all_goals next hload => rw [if_neg (by simp [hload])]

theorem requestState_eq (force : ForcePair) (mode : DbMode) (cl : Channel) : requestState force mode cl =
    { cl with csfSh := force, dbOutSh := mode, csf := if cl.csfLoad = .immediate then force else cl.csf } :=
  immediateForce_eq _

theorem prepareLoads_eq (e : PrepEntry) (cl : Channel) : prepareLoads e cl =
    { cl with dbLoad := e.dbLoad, csfLoad := e.csfLoad, csf := if e.csfLoad = .immediate then cl.csfSh else cl.csf } :=
  immediateForce_eq _

/-! ## Transition commands by the feature check -/

section
variable {s : State} {h : Nat} {p : PwmInst} {cl : Channel}

/-- With the feature a transition command leaves what `change` makes of its cluster, and `PC`. -/
theorem onTransition_supported (hl : Leg s h p cl) (hf : s.cfg.hasSyncTransition = true) (i : Instr)
    (change : PwmInst → Channel → Channel) :
    onTransition i h s change = .next (returned (withCluster s p (change p cl))) :=
  (onCluster_of_leg hl _ _).trans ((if_pos hf).trans (finishCluster_eq hl.channel _ _))

/-- Without the feature a transition command faults `UNSUPPORTED` (R200). -/
theorem onTransition_unsupported (hl : Leg s h p cl) (hf : s.cfg.hasSyncTransition = false) (i : Instr)
    (change : PwmInst → Channel → Channel) :
    onTransition i h s change = .next (stopped s (encode i) 0x0A) :=
  (onCluster_of_leg hl _ _).trans ((if_neg (by simp [hf])).trans (raiseFault_eq ..))

end

/-! ## The obligations -/

/-- Settles O51: the two sides of the feature check, and the cluster of each request. -/
theorem transitionRequests : Obligations.TransitionRequests := by
  intro s h p cl hl safe
  refine ⟨fun hf => ⟨?_, ?_⟩, fun hf => ⟨onTransition_unsupported hl hf .., onTransition_unsupported hl hf ..⟩⟩
  all_goals
    refine (onTransition_supported hl hf _ _).trans ?_
    rw [requestState_eq]
    rfl

/-- Settles O52: the two sides of the feature check, and the cluster with the map's entry. -/
theorem prepareTransition : Obligations.PrepareTransition := by
  intro s h p cl hl e
  refine ⟨fun hf => (onTransition_supported hl hf _ _).trans ?_, fun hf => onTransition_unsupported hl hf ..⟩
  rw [prepareLoads_eq]
  rfl

end Sys2Proof.Proofs

/-! SUPPORT. The statements of 48_harness.md. A branch and H.END are put once into the spec's words (`branchBy_of_nonneg`,
`branchBy_of_neg`, `exec_hEnd_of_lo`, `exec_hEnd_of_hi`), and so is the step past the end of a program (`step_past_end`). -/

namespace Sys2Proof.Proofs

open Machine Spec

/-! ## The harness lines, in the spec's words -/

section
variable {s : State}

theorem setPc_eq_jumped (n : Nat) (s : State) : setPc n s = jumped n s := by
  cases h : s.hiActive <;> simp [setPc, setCtx, ctxOf, issuer, jumped, h]

theorem ctxOf_issuer_pc (s : State) : (ctxOf s (issuer s)).pc = pcOf s := by
  cases h : s.hiActive <;> simp [ctxOf, issuer, pcOf, h]

theorem ctxOf_issuer_res (s : State) : (ctxOf s (issuer s)).res = resOf s := by
  cases h : s.hiActive <;> simp [ctxOf, issuer, resOf, h]

/-- A branch with a target goes there (R241, R242). -/
theorem branchBy_of_nonneg {off : Int} (h : 0 ≤ (pcOf s : Int) + off) (i : Instr) :
    branchBy i off s = .next (jumped ((pcOf s : Int) + off).toNat s) := by
  simp only [branchBy, ctxOf_issuer_pc, setPc_eq_jumped, if_neg h.not_gt]

/-- A branch below the first command faults and stays where it is (R241, R242). -/
theorem branchBy_of_neg {off : Int} (h : (pcOf s : Int) + off < 0) (i : Instr) :
    branchBy i off s = .next (stopped s (encode i) 0x0B) := by
  simp only [branchBy, ctxOf_issuer_pc, if_pos h]
  exact raiseFault_eq ..

theorem exec_hBrz_of_zero (h : resOf s = 0) (off : Int) : exec (.hBrz off) s = branchBy (.hBrz off) off s :=
  if_pos ((ctxOf_issuer_res s).trans h)

theorem exec_hBrz_of_ne_zero (h : resOf s ≠ 0) (off : Int) : exec (.hBrz off) s = .next (returned s) :=
  (if_neg (by rwa [ctxOf_issuer_res])).trans (finish_eq s)

/-- H.END in LO ends LO (R243). -/
theorem exec_hEnd_of_lo (h : s.hiActive = false) : exec .hEnd s = .next { s with loDone := true } := by
  change execHEnd s = _
  simp [execHEnd, issuer, h, endLo]

/-- H.END in HI returns from the interrupt (R255). -/
theorem exec_hEnd_of_hi (h : s.hiActive = true) :
    exec .hEnd s = .next { s with ie := s.ieAtEntry, hiActive := false } := by
  change execHEnd s = _
  simp [execHEnd, issuer, h, returnInterrupt]

end

/-! ## The step past the end of a program -/

section
variable {s : State} {ctx : Ctx}

/-- A context with no command at its `PC` takes the step of H.END (R244). -/
theorem step_past_end (he : nextEvent s = .cpu) (hen : entryEnabled s = false) (hr : running s = some ctx)
    (hpc : (ctxOf s ctx).prog.length ≤ (ctxOf s ctx).pc) : step s = exec .hEnd (moved s) := by
  rw [step_eq, he]
  exact processorStep_end (s := popSched s) hen hr (by simpa using hpc)

theorem hiActive_of_running_lo (hr : running s = some .lo) : s.hiActive = false := by
  simpa [issuer] using (running_eq_some hr).2.1

theorem hiActive_of_running_hi (hr : running s = some .hi) : s.hiActive = true := by
  simpa [issuer] using (running_eq_some hr).2.1

theorem running_of_hiActive (hf : s.faulted = false) (ha : s.hiActive = true) : running s = some .hi := by
  simp [running, hf, ha]

theorem entryEnabled_eq_true_iff : entryEnabled s = true ↔
    s.irqPend = true ∧ s.ie = true ∧ s.hiActive = false ∧ s.faulted = false := by
  simp [entryEnabled, and_assoc]

theorem entryEnabled_of_hiActive (ha : s.hiActive = true) : entryEnabled s = false := by
  simp [entryEnabled, ha]

/-- Past the end of its program HI returns from the interrupt (R244, R255). -/
theorem step_of_hi_past_end (he : nextEvent s = .cpu) (ha : s.hiActive = true) (hf : s.faulted = false)
    (hpc : s.hi.prog.length ≤ s.hi.pc) : step s = .next { moved s with ie := s.ieAtEntry, hiActive := false } :=
  (step_past_end he (entryEnabled_of_hiActive ha) (running_of_hiActive hf ha) hpc).trans (exec_hEnd_of_hi ha)

end

/-! ## The obligations -/

/-- Settles O10: past its end a context steps as by H.END, and after an entry an empty HI program is already at its end. -/
theorem programEndActsAsEnd : Obligations.ProgramEndActsAsEnd := by
  refine ⟨fun s ctx he hen hr hpc => ?_, fun s he he' hprog hen => ?_⟩
  · have hstep : step s = exec .hEnd (moved s) := step_past_end he hen hr hpc
    refine ⟨hstep, hstep.trans ?_⟩
    cases ctx with
    | lo => exact exec_hEnd_of_lo (hiActive_of_running_lo hr)
    | hi => exact exec_hEnd_of_hi (hiActive_of_running_hi hr)
  · obtain ⟨-, -, ha, hf⟩ := entryEnabled_eq_true_iff.mp hen
    have hpc : (enterInterrupt (popSched s)).hi.prog.length ≤ 0 := by simp [enterInterrupt, hprog]
    refine ⟨_, step_entry he hen, (step_of_hi_past_end (s := enterInterrupt (popSched s)) he' rfl hf hpc).trans ?_⟩
    simp [enterInterrupt, popSched, moved, ha]

/-- Settles O55: each line by the result it reads, the sign of its target or the context it ends. -/
theorem harnessLines : Obligations.HarnessLines :=
  ⟨fun _ off hz ht => (exec_hBrz_of_zero hz off).trans (branchBy_of_nonneg ht _),
    fun _ off hn => exec_hBrz_of_ne_zero hn off,
    fun _ _ ht => branchBy_of_nonneg ht _,
    fun _ off ht => ⟨branchBy_of_neg ht _, fun hz => (exec_hBrz_of_zero hz off).trans (branchBy_of_neg ht _)⟩,
    fun _ => exec_hEnd_of_lo,
    fun _ => exec_hEnd_of_hi⟩

end Sys2Proof.Proofs

/-! SUPPORT. The statements of 60_exceptions.md on the interrupt (R254, R255), the fault-stop (R256, R260) and the common checks
(R258). They follow from what an instruction and a step can do (`Effect`, `StepKind`): an instruction's fault is a `faultStop`,
and only a fetched command faults (`exists_faultStop_of_step`). Every MEMGRD command is one `onGuard` and every PWM command with
a handle one `onInst`, so that each check has one equation. With every configured leg on a channel that exists
(`LegsHaveClusters`), which the invariant gives, no outcome stops the model (`GoesOn`). -/

namespace Sys2Proof.Proofs

open Machine Spec

/-! ## What an instruction leaves of the interrupt's and the fault's registers -/

section
variable {i : Instr} {s t u : State}

theorem BankWrites.faulted_eq (h : BankWrites i s u) : u.faulted = s.faulted := by rw [h.frame]

theorem BankWrites.irqPend_eq (h : BankWrites i s u) : u.irqPend = s.irqPend := by rw [h.frame]

theorem BankWrites.loDone_eq (h : BankWrites i s u) : u.loDone = s.loDone := by rw [h.frame]

/-- An instruction faults, and then it writes the fault record alone (R256), or it keeps `FAULTED`. -/
theorem Effect.faultStop_or_faulted_eq (h : Effect i s t) :
    (∃ cause, t = faultStop (encode i) cause s) ∨ t.faulted = s.faulted := by
  cases h with
  | fault cause => exact .inl ⟨cause, rfl⟩
  | done hu => exact .inr (by rw [advance_faulted, hu.faulted_eq])
  | answer _ v hu => exact .inr (by rw [advance_faulted, setRes_faulted, hu.faulted_eq])
  | jump _ n => exact .inr (setPc_faulted s n)
  | endLo | endHi => exact .inr rfl

/-- No instruction clears `FAULTED` (R260). -/
theorem Effect.faulted_of (h : Effect i s t) (hs : s.faulted = true) : t.faulted = true := by
  obtain ⟨cause, rfl⟩ | hf := h.faultStop_or_faulted_eq
  · rfl
  · rw [hf, hs]

/-- An instruction that makes `FAULTED` true is a fault-stop. -/
theorem Effect.exists_faultStop (h : Effect i s t) (hs : s.faulted = false) (ht : t.faulted = true) :
    ∃ cause, t = faultStop (encode i) cause s :=
  h.faultStop_or_faulted_eq.resolve_right (by simp [hs, ht])

/-- No instruction writes `IRQ_PEND` (R24). -/
theorem Effect.irqPend_eq (h : Effect i s t) : t.irqPend = s.irqPend := by
  cases h with
  | fault | endLo | endHi => rfl
  | done hu => rw [advance_irqPend, hu.irqPend_eq]
  | answer _ v hu => rw [advance_irqPend, setRes_irqPend, hu.irqPend_eq]
  | jump _ n => exact setPc_irqPend s n

/-- An instruction of HI keeps `LO_DONE` (R243). -/
theorem Effect.loDone_eq (h : Effect i s t) (ha : s.hiActive = true) : t.loDone = s.loDone := by
  cases h with
  | fault | endHi => rfl
  | done hu => rw [advance_loDone, hu.loDone_eq]
  | answer _ v hu => rw [advance_loDone, setRes_loDone, hu.loDone_eq]
  | jump _ n => exact setPc_loDone s n
  | endLo _ hc => simp [issuer, ha] at hc

end

/-! ## The interrupt (R254, R255) -/

section
variable {s t : State}

/-- A step that activates HI is the entry (R254). -/
theorem StepKind.entry_of_hiActive (h : StepKind s t) (hs : s.hiActive = false) (ht : t.hiActive = true) :
    nextEvent s = .cpu ∧ entryEnabled s = true := by
  cases h with
  | entry he hen => exact ⟨he, hen⟩
  | agent | idle | bad => cases hs.symm.trans ht
  | instr _ _ _ hx => cases ((exec_effect hx).hiActive_of hs).symm.trans ht

/-- While HI is active no step moves LO or drops a request (R251, R255). -/
theorem step_of_hiActive (ha : s.hiActive = true) (hx : step s = .next t) :
    t.lo = s.lo ∧ t.loDone = s.loDone ∧ (s.irqPend = true → t.irqPend = true) := by
  by_cases he : nextEvent s = .cpu
  · cases step_kind hx with
    | agent hne => exact absurd he hne
    | entry _ hen => simp [entryEnabled, ha] at hen
    | idle | bad => exact ⟨rfl, rfl, id⟩
    | instr _ _ _ hi =>
      have hef := exec_effect hi
      exact ⟨hef.ctxOf_other (c := .lo) (by simp [issuer, ha]), hef.loDone_eq ha, fun hp => hef.irqPend_eq.trans hp⟩
  · obtain ⟨u, hu, hlo, -, -, -, hdone, -, hirq⟩ := step_sameProcessor he
    cases hu.symm.trans hx
    exact ⟨hlo, hdone, hirq⟩

end

/-! ## The fault-stop (R256, R260) -/

/-- The codes of R257 are 0x01 to 0x0C. -/
theorem causeCode_mem_range (cause : Cause) : 1 ≤ (causeCode cause).toNat ∧ (causeCode cause).toNat ≤ 12 := by
  cases cause <;> decide

section
variable {s t : State}

/-- A fault-stop, in the spec's words, with its code in the range of R257. -/
theorem stopped_of_faultStop {c : Command} (h : ∃ cause, t = faultStop c cause s) :
    t = stopped s c t.faultCause ∧ 1 ≤ t.faultCause.toNat ∧ t.faultCause.toNat ≤ 12 := by
  obtain ⟨cause, rfl⟩ := h
  exact ⟨rfl, causeCode_mem_range cause⟩

/-- H.END never faults (R243, R255). -/
theorem faulted_of_exec_hEnd (hx : exec .hEnd s = .next t) : t.faulted = s.faulted := by
  cases ha : s.hiActive with
  | false =>
    cases (exec_hEnd_of_lo ha).symm.trans hx
    rfl
  | true =>
    cases (exec_hEnd_of_hi ha).symm.trans hx
    rfl

/-- Only the running context's step makes `FAULTED` true (R251, R256). -/
theorem StepKind.running_of_faulted (h : StepKind s t) (hs : s.faulted = false) (ht : t.faulted = true) :
    nextEvent s = .cpu ∧ entryEnabled s = false ∧ ∃ ctx, running s = some ctx := by
  cases h with
  | agent | entry | idle => cases hs.symm.trans ht
  | instr he hen hr | bad he hen hr => exact ⟨he, hen, _, hr⟩

/-- A step that makes `FAULTED` true fetches a command: past its end a program runs H.END (R244), which does not fault. -/
theorem exists_fetches_of_faulted (hx : step s = .next t) (hs : s.faulted = false) (ht : t.faulted = true) :
    ∃ ctx c, Fetches s ctx c := by
  obtain ⟨he, hen, ctx, hr⟩ := (step_kind hx).running_of_faulted hs ht
  cases hc : (ctxOf s ctx).prog[(ctxOf s ctx).pc]? with
  | some c =>
    have hno : ¬ entryEnabled s = true := by simp [hen]
    exact ⟨ctx, c, he, mt entryEnabled_eq_true_iff.mpr hno, hr, hc⟩
  | none =>
    rw [step_past_end he hen hr (List.getElem?_eq_none_iff.mp hc)] at hx
    cases ((faulted_of_exec_hEnd hx).trans hs).symm.trans ht

/-- A step that makes `FAULTED` true is the fault-stop of the fetched command (R256). -/
theorem exists_faultStop_of_step (hx : step s = .next t) (hs : s.faulted = false) (ht : t.faulted = true) :
    ∃ ctx c, Fetches s ctx c ∧ ∃ cause, t = faultStop c cause (moved s) := by
  obtain ⟨ctx, c, hf⟩ := exists_fetches_of_faulted hx hs ht
  refine ⟨ctx, c, hf, ?_⟩
  cases hd : decode c with
  | bad e =>
    cases (step_of_bad hf hd).symm.trans hx
    exact ⟨decodeCause e, rfl⟩
  | instr i =>
    obtain ⟨-, -, -, rfl⟩ := decode_eq_instr hd
    rw [step_of_fetches hf, hd] at hx
    exact (exec_effect hx).exists_faultStop hs ht

/-- Every step from a faulted state keeps the record (R260): neither an entry nor a context's step is taken. -/
theorem StepKind.faultRecord_eq (h : StepKind s t) (hs : s.faulted = true) :
    t.faulted = true ∧ t.faultCause = s.faultCause ∧ t.faultCmd = s.faultCmd ∧ t.faultCtx = s.faultCtx := by
  cases h with
  | agent | idle => exact ⟨hs, rfl, rfl, rfl⟩
  | entry _ hen => simp [entryEnabled, hs] at hen
  | instr _ _ hr | bad _ _ hr => cases hs.symm.trans (running_eq_some hr).1

end

/-! ## The common checks (R258) -/

section
variable {i : Instr} {h : Nat} {need : Setup} {s : State} {cause : Cause} {init conf : Bool}

/-- An unbound record is refused, whatever its `CONF`, unless a command needs no setup. -/
theorem setupCheck_of_unbound (hn : need ≠ .any) (hi : init = false) : setupCheck need init conf = some .uninit := by
  subst hi
  cases need with
  | any => exact absurd rfl hn
  | bound | configured => rfl

/-- A bound, unconfigured record is refused if a command needs a configured one. -/
theorem setupCheck_of_unconfigured (hn : need = .configured) (hi : init = true) (hc : conf = false) :
    setupCheck need init conf = some .unconfigured := by
  simp [setupCheck, hn, hi, hc]

theorem onGuard_of_length_le (hh : s.guards.length ≤ h) (body : Guard → Out) :
    onGuard need i h s body = raiseFault i .badHandle s := by
  simp [onGuard, hh]

theorem onGuard_of_check {g : Guard} (hg : s.guards[h]? = some g) (hc : setupCheck need g.init g.conf = some cause)
    (body : Guard → Out) : onGuard need i h s body = raiseFault i cause s := by
  simp [onGuard, hg, hc]

theorem onInst_of_length_le (hh : s.insts.length ≤ h) (body : PwmInst → Out) :
    onInst need i h s body = raiseFault i .badHandle s := by
  simp [onInst, hh]

theorem onInst_of_check {p : PwmInst} (hp : s.insts[h]? = some p) (hc : setupCheck need p.init p.conf = some cause)
    (body : PwmInst → Out) : onInst need i h s body = raiseFault i cause s := by
  simp [onInst, hp, hc]

/-- Every MEMGRD command makes the common checks of its target before its own work (R120). -/
theorem exec_eq_onGuard (hi : mgTarget i = some (h, need)) (s : State) :
    ∃ body, exec i s = onGuard need i h s body := by
  cases i <;> cases hi <;> exact ⟨_, rfl⟩

/-- Every PWM command with a handle makes the common checks of its target before its own work (R140). -/
theorem exec_eq_onInst (hi : pwmTarget i = some (h, need)) (s : State) :
    ∃ body, exec i s = onInst need i h s body := by
  cases i <;> cases hi <;> exact ⟨_, rfl⟩

end

/-! ## No step stops the model (R37, log entry 11) -/

/-- Every configured leg names a channel that exists (R37). -/
def LegsHaveClusters (s : State) : Prop :=
  ∀ (h : Nat) (p : PwmInst), s.insts[h]? = some p → p.conf = true → chan? s p.ch.toNat ≠ none

/-- The outcome is a next state. -/
def GoesOn (o : Out) : Prop := ∃ t, o = .next t

/-- The invariant binds every configured leg to a channel (R37). -/
theorem legsHaveClusters_of_inv {s : State} (hs : Inv s) : LegsHaveClusters s := by
  intro h p hp hconf hnone
  have hb := hs.instBinding h (List.getElem?_eq_some_iff.mp hp).1
  simp [instBindingOk, hp, hconf, hnone] at hb

section
variable {i : Instr} {h : Nat} {s : State}

theorem goesOn_onInst {need : Setup} {body : PwmInst → Out} (hb : ∀ p, GoesOn (body p)) :
    GoesOn (onInst need i h s body) := by
  obtain ⟨cause, hf⟩ | ⟨p, -, -, hp⟩ := onInst_cases need i h s body
  · exact ⟨_, hf⟩
  · rw [hp]
    exact hb p

theorem goesOn_onCluster (hs : LegsHaveClusters s) {body : PwmInst → Channel → Out} (hb : ∀ p cl, GoesOn (body p cl)) :
    GoesOn (onCluster i h s body) := by
  obtain ⟨cause, hf⟩ | ⟨p, hp, -, hconf, hnone, -⟩ | ⟨p, cl, -, -, -, -, he⟩ := onCluster_cases i h s body
  · exact ⟨_, hf⟩
  · exact absurd hnone (hs h p hp hconf)
  · rw [he]
    exact hb p cl

theorem goesOn_exec_of_mgTarget {need : Setup} (hi : mgTarget i = some (h, need)) : GoesOn (exec i s) :=
  (mgAnswers_exec hi s).imp fun _ => And.left

theorem goesOn_branchBy (off : Int) : GoesOn (branchBy i off s) := by
  by_cases hn : (pcOf s : Int) + off < 0
  · exact ⟨_, branchBy_of_neg hn i⟩
  · exact ⟨_, branchBy_of_nonneg (not_lt.mp hn) i⟩

end

/-- No instruction stops the model when every configured leg has its channel. -/
theorem goesOn_exec {s : State} (hs : LegsHaveClusters s) (i : Instr) : GoesOn (exec i s) := by
  cases i with
  | mgInit | mgConfig | mgBeginw | mgComplw | mgBeginr | mgComplr | mgPldwr | mgPldrd =>
    exact goesOn_exec_of_mgTarget rfl
  | pwmPdef => exact ⟨_, rfl⟩
  | pwmPset field value =>
    cases hp : stageParam s.pstage field value with
    | none => exact ⟨_, exec_pwmPset_of_none hp⟩
    | some p => exact ⟨_, exec_pwmPset_of_some hp⟩
  | pwmInit h size =>
    show GoesOn (execPwmInit h size s)
    refine goesOn_onInst fun p => ?_
    split <;> exact ⟨_, rfl⟩
  | pwmConfig =>
    refine goesOn_onInst fun p => ?_
    split
    · exact ⟨_, rfl⟩
    · split <;> exact ⟨_, rfl⟩
  | pwmScaleprd | pwmSetseq | pwmSetpassive | pwmSetoper | pwmPrepare =>
    refine goesOn_onCluster hs fun p cl => ?_
    split <;> exact ⟨_, rfl⟩
  | pwmSetduty | pwmSetcmpph | pwmSetphase | pwmGetfull | pwmGetctr | pwmGetdir | pwmGetseq | pwmSetdt | pwmSettzsafe
  | pwmEnout | pwmDisout | pwmIsen => exact goesOn_onCluster hs fun p cl => ⟨_, rfl⟩
  | hBrz off =>
    by_cases hz : resOf s = 0
    · rw [exec_hBrz_of_zero hz]
      exact goesOn_branchBy off
    · exact ⟨_, exec_hBrz_of_ne_zero hz off⟩
  | hBra off => exact goesOn_branchBy off
  | hEnd =>
    cases ha : s.hiActive with
    | false => exact ⟨_, exec_hEnd_of_lo ha⟩
    | true => exact ⟨_, exec_hEnd_of_hi ha⟩

/-- No step stops the model when every configured leg has its channel. -/
theorem goesOn_step {s : State} (hs : LegsHaveClusters s) : GoesOn (step s) := by
  by_cases he : nextEvent s = .cpu
  · have hstep : step s = processorStep exec (popSched s) := by rw [step_eq, he]; rfl
    rw [hstep]
    obtain ⟨-, hp⟩ | ⟨-, -, hp⟩ | ⟨-, -, -, ⟨i, hp⟩ | ⟨c, e, -, hp⟩⟩ := processorStep_cases exec (popSched s)
    · exact ⟨_, hp⟩
    · exact ⟨_, hp⟩
    · rw [hp]
      have hpop : LegsHaveClusters (popSched s) := hs
      exact goesOn_exec hpop i
    · exact ⟨_, hp⟩
  · obtain ⟨t, ht, -⟩ := step_sameProcessor he
    exact ⟨t, ht⟩

/-! ## The obligations -/

/-- Settles O11: the entry is the processor's step when it is enabled, and no other kind of step activates HI. -/
theorem interruptEntry : Obligations.InterruptEntry := by
  refine ⟨fun s he hirq hie ha hf => step_entry he (entryEnabled_eq_true_iff.mpr ⟨hirq, hie, ha, hf⟩),
    fun s t hx ha ht => ?_⟩
  obtain ⟨he, hen⟩ := (step_kind hx).entry_of_hiActive ha ht
  obtain ⟨hirq, hie, -, hf⟩ := entryEnabled_eq_true_iff.mp hen
  exact ⟨he, hirq, hie, hf⟩

/-- Settles O12: the two forms of the return, what a step keeps while HI is active, and the entry's condition after H.END. -/
theorem interruptReturn : Obligations.InterruptReturn := by
  refine ⟨fun s => exec_hEnd_of_hi, fun s ha hf he => step_of_hi_past_end he ha hf, fun s t => step_of_hiActive,
    fun s ha hf hirq hie t hx => ?_⟩
  cases (exec_hEnd_of_hi ha).symm.trans hx
  exact entryEnabled_eq_true_iff.mpr ⟨hirq, hie, rfl, hf⟩

/-- Settles O13: the fault is a fault-stop of the instruction, and in a step of the fetched command. -/
theorem faultEntryWritesOnlyTheRecord : Obligations.FaultEntryWritesOnlyTheRecord := by
  refine ⟨fun i s t hx hs ht => stopped_of_faultStop ((exec_effect hx).exists_faultStop hs ht), fun s t hx hs ht => ?_⟩
  obtain ⟨ctx, c, hf, hstop⟩ := exists_faultStop_of_step hx hs ht
  exact ⟨ctx, c, hf, stopped_of_faultStop hstop⟩

/-- Settles O15: by the kinds of a step and the effects of an instruction; `runEnded` asks for `FAULTED = 0`. -/
theorem faultStopIsSticky : Obligations.FaultStopIsSticky :=
  ⟨fun _ _ hs hx => (step_kind hx).faultRecord_eq hs, fun _ _ _ hs hx => (exec_effect hx).faulted_of hs,
    fun _ _ _ _ _ _ => rfl, fun _ hs => by simp [runEnded, hs]⟩

/-- Settles O38: each check of `onGuard`, which every MEMGRD command is. -/
theorem mgCommonChecks : Obligations.MgCommonChecks := by
  intro i s h need hi
  obtain ⟨body, hx⟩ := exec_eq_onGuard hi s
  rw [hx]
  refine ⟨fun hh => onGuard_of_length_le hh body, fun g hg hn hinit => ?_, fun g hg hn hinit hconf => ?_⟩
  · exact onGuard_of_check hg (setupCheck_of_unbound hn hinit) body
  · exact onGuard_of_check hg (setupCheck_of_unconfigured hn hinit hconf) body

/-- Settles O53: each check of `onInst`, which every PWM command with a handle is. -/
theorem pwmCommonChecks : Obligations.PwmCommonChecks := by
  intro i s h need hi
  obtain ⟨body, hx⟩ := exec_eq_onInst hi s
  rw [hx]
  refine ⟨fun hh => onInst_of_length_le hh body, fun p hp hn hinit => ?_, fun p hp hn hinit hconf => ?_⟩
  · exact onInst_of_check hp (setupCheck_of_unbound hn hinit) body
  · exact onInst_of_check hp (setupCheck_of_unconfigured hn hinit hconf) body

/-- Settles O59: the invariant gives every configured leg its channel. -/
theorem invariantStepNeverStops : Obligations.InvariantStepNeverStops :=
  fun _ hs => goesOn_step (legsHaveClusters_of_inv hs)

end Sys2Proof.Proofs

/-! SUPPORT. The state after reset (R280): each bank is copies of its record's reset value, and no payload word is stored. -/

namespace Sys2Proof.Proofs

open Machine Spec

/-- R71, log entry 6: a reset guard stores no payload word, so each is read as its free value. -/
@[simp] theorem memRead_resetGuard (h i : Nat) : memRead h resetGuard i = Config.payloadAtReset h i := rfl

theorem getElem?_guards_resetOf (c : Config) {g p n h : Nat} (hh : h < g) (lo hi : List Command) :
    (State.resetOf c g p n lo hi).guards[h]? = some resetGuard :=
  List.getElem?_replicate_of_lt hh

theorem memoryWord_resetOf (c : Config) {g p n h : Nat} (hh : h < g) (lo hi : List Command) (i : Nat) :
    Memory.word (State.resetOf c g p n lo hi) h i = some (Config.payloadAtReset h i) := by
  simp [Memory.word, getElem?_guards_resetOf c hh]

/-! ## The obligation -/

/-- Settles O56: the registers by definition of the reset, the banks as copies of one record, the payload by
`memoryWord_resetOf`. -/
theorem resetValues : Obligations.ResetValues := by
  intro c nG nP nC progLo progHi s
  obtain ⟨hguards, hguard⟩ := List.eq_replicate_iff.mp (show s.guards = List.replicate nG resetGuard from rfl)
  obtain ⟨hinsts, hinst⟩ := List.eq_replicate_iff.mp (show s.insts = List.replicate nP resetInst from rfl)
  obtain ⟨hchans, hchan⟩ := List.eq_replicate_iff.mp (show s.chans = List.replicate nC (resetChannel c) from rfl)
  exact ⟨rfl, rfl, rfl, rfl, rfl, rfl, rfl, rfl, rfl, rfl, rfl, rfl, hguards, hguard, hinsts, hinst, hchans, hchan,
    fun _ hh => memoryWord_resetOf c hh progLo progHi⟩

end Sys2Proof.Proofs

/-! SUPPORT. The statements of 60_exceptions.md on the steps of the schedule (R250), and the guarantee of 20_memory.md that a
section masked by `IE = 0` is not preempted. Each agent's step has one equation. -/

namespace Sys2Proof.Proofs

open Machine Spec

/-! ## The step of each agent -/

section
variable {s t : State} {c : Nat}

theorem step_raise (he : nextEvent s = .raise) : step s = .next { moved s with irqPend := true } := by
  rw [step_eq, he]
  rfl

theorem step_trip (he : nextEvent s = .trip c) : step s = .next (tripStep c (moved s)) := by
  rw [step_eq, he]
  rfl

theorem step_sync (he : nextEvent s = .sync c) : step s = .next (syncStep c (moved s)) := by
  rw [step_eq, he]
  rfl

theorem step_tick (he : nextEvent s = .tick c) : step s = .next (tickStep c (moved s)) := by
  rw [step_eq, he]
  rfl

/-- A faulted processor does not move (R251, R259). -/
theorem step_cpu_of_faulted (he : nextEvent s = .cpu) (hf : s.faulted = true) : step s = .next (moved s) := by
  have hen : entryEnabled s = false := by simp [entryEnabled, hf]
  have hr : running s = none := by simp [running, hf]
  rw [step_eq, he]
  exact processorStep_idle (s := popSched s) hen hr

/-! ## The change of one channel -/

/-- A channel that exists is written at its place. -/
theorem modifyChan_succ {cl : Channel} (hcl : s.chans[c]? = some cl) (f : Channel → Channel) :
    modifyChan (c + 1) f s = { s with chans := s.chans.set c (f cl) } := by
  have hcl' : chan? s (c + 1) = some cl := hcl
  simp [modifyChan, hcl', setChan, chanPut]

/-- A change that is not enabled leaves the state as it is (log entry 2). -/
theorem modifyChan_succ_ite {cl : Channel} (hcl : s.chans[c]? = some cl) (f : Channel → Channel)
    (enabled : Channel → Bool) : modifyChan (c + 1) (fun ch => if enabled ch then f ch else ch) s =
      if enabled cl then { s with chans := s.chans.set c (f cl) } else s := by
  obtain ⟨hc, rfl⟩ := List.getElem?_eq_some_iff.mp hcl
  rw [modifyChan_succ hcl]
  split
  · rfl
  · rw [List.set_getElem_self]

/-- A sync in the spec's words (R221). -/
theorem syncChannel_eq (cl : Channel) :
    syncChannel cl = { cl with ctr := cl.phs, ctrDir := if cl.ctrMode = .upDown then cl.phsDir else true } := by
  unfold syncChannel
  cases cl.ctrMode <;> rfl

theorem tripStep_succ {cl : Channel} (hcl : s.chans[c]? = some cl) : tripStep (c + 1) s =
    if s.cfg.tripIn then { s with chans := s.chans.set c { cl with tzOst := true } } else s :=
  modifyChan_succ_ite hcl tripChannel fun _ => s.cfg.tripIn

theorem syncStep_succ {cl : Channel} (hcl : s.chans[c]? = some cl) : syncStep (c + 1) s =
    if s.cfg.syncIn ∧ cl.run then
      { s with chans := s.chans.set c { cl with ctr := cl.phs, ctrDir := if cl.ctrMode = .upDown then cl.phsDir else true } }
    else s := by
  rw [syncStep, modifyChan_succ_ite hcl syncChannel fun ch => s.cfg.syncIn && ch.run, syncChannel_eq]
  simp only [Bool.and_eq_true]

end

/-! ## The placed command (log entry 8) -/

section
variable (c : Command) (s : State)

theorem ctxOf_placeNext : ctxOf (placeNext c s) (issuer s) =
    { ctxOf s (issuer s) with prog := placeCommand (ctxOf s (issuer s)).prog (ctxOf s (issuer s)).pc c } := by
  simp only [placeNext]
  cases issuer s <;> rfl

/-- The placed command is the next one fetched: nothing keeps its context from running it. -/
theorem fetches_placeNext : Fetches (placeNext c s) (issuer s) c where
  processor := rfl
  noEntry := by
    simp only [placeNext, setCtx_ie, setCtx_hiActive]
    rintro ⟨hirq, hie, ha, -⟩
    simp [hie, ha] at hirq
  runs := by cases ha : s.hiActive <;> simp [running, placeNext, issuer, ha]
  fetched := by
    rw [ctxOf_placeNext]
    exact placeCommand_get _ _ c

end

/-! ## A masked section (R23, R251) -/

section
variable {s t : State} {n : Nat}

/-- A step of the running context acts on the fetched command, or is H.END past the end of the program (R240, R244). -/
theorem fetches_or_step_end {ctx : Ctx} (he : nextEvent s = .cpu) (hen : entryEnabled s = false)
    (hr : running s = some ctx) : (∃ c, Fetches s ctx c) ∨ step s = exec .hEnd (moved s) := by
  cases hc : (ctxOf s ctx).prog[(ctxOf s ctx).pc]? with
  | some c =>
    have hno : ¬ entryEnabled s = true := by simp [hen]
    exact .inl ⟨c, he, mt entryEnabled_eq_true_iff.mpr hno, hr, hc⟩
  | none => exact .inr (step_past_end he hen hr (List.getElem?_eq_none_iff.mp hc))

/-- Whatever LO's next step fetches, if anything, is no instruction that may write `IE`. -/
def FetchesNoIeWrite (s : State) : Prop :=
  ∀ ctx c i, Fetches s ctx c → decode c = .instr i → mayWriteIe i = false

/-- A step on a fetched command that may not write `IE` keeps it. -/
theorem ie_eq_of_fetches {ctx : Ctx} {c : Command} (hw : FetchesNoIeWrite s) (hf : Fetches s ctx c)
    (hx : step s = .next t) : t.ie = s.ie := by
  cases hd : decode c with
  | bad e =>
    cases (step_of_bad hf hd).symm.trans hx
    rfl
  | instr i =>
    rw [step_of_fetches hf, hd] at hx
    exact (exec_effect hx).ie_eq (hw ctx c i hf hd)

/-- While LO runs, past the end of its program too, a step that fetches no write of `IE` keeps it. -/
theorem ie_eq_of_lo (ha : s.hiActive = false) (hw : FetchesNoIeWrite s) (hx : step s = .next t) : t.ie = s.ie := by
  cases step_kind hx with
  | agent | entry | idle | bad => rfl
  | instr he hen hr =>
    obtain ⟨c, hf⟩ | hend := fetches_or_step_end he hen hr
    · exact ie_eq_of_fetches hw hf hx
    · cases (hend.trans (exec_hEnd_of_lo ha)).symm.trans hx
      rfl

/-- A step that does not activate HI while LO runs keeps HI's registers. -/
theorem StepKind.hi_eq_of_lo (h : StepKind s t) (ha : s.hiActive = false) (hie : s.ie = false) : t.hi = s.hi := by
  cases h with
  | agent | idle | bad => rfl
  | entry _ hen => simp [entryEnabled, hie] at hen
  | instr _ _ _ hx => exact (exec_effect hx).ctxOf_other (c := .hi) (by simp [issuer, ha])

/-- A run of `n + 1` steps is a step and a run of `n`. -/
theorem exists_step_of_run_succ (hx : Host.Core.run core (n + 1) s = .next t) :
    ∃ u, step s = .next u ∧ Host.Core.run core n u = .next t := by
  simp only [Host.Core.run] at hx
  split at hx
  · next u hu => exact ⟨u, hu, hx⟩
  · cases hx
  · cases hx

theorem run_succ_of_step {u : State} (hu : step s = .next u) (n : Nat) :
    Host.Core.run core (n + 1) s = Host.Core.run core n u := by
  simp only [Host.Core.run]
  rw [show core.step s = .next u from hu]

end

/-! ## The obligations -/

/-- Settles O17: by induction over the run, each step keeping LO running, `IE` at 0 and HI's registers. -/
theorem maskedSectionIsNeverPreempted : Obligations.MaskedSectionIsNeverPreempted := by
  intro n
  induction n with
  | zero =>
    intro s t ha hie hx _
    cases hx
    exact ⟨ha, hie, rfl⟩
  | succ n ih =>
    intro s t ha hie hx hw
    obtain ⟨u, hu, hrun⟩ := exists_step_of_run_succ hx
    have hk : StepKind s u := step_kind hu
    have hie' : u.ie = false := (ie_eq_of_lo ha (fun ctx c i => hw 0 n.succ_pos s ctx c i rfl) hu).trans hie
    obtain ⟨hta, htie, hthi⟩ := ih u t (hk.hiActive_of_masked ha hie) hie' hrun fun k hlt v ctx c i hv =>
      hw (k + 1) (Nat.succ_lt_succ hlt) v ctx c i ((run_succ_of_step hu k).trans hv)
    exact ⟨hta, htie, hthi.trans (hk.hi_eq_of_lo ha hie)⟩

/-- Settles O14: the processor is neither entered nor running, and each other agent steps as in any state. -/
theorem faultStopHaltsContexts : Obligations.FaultStopHaltsContexts := by
  intro s hf
  cases he : nextEvent s with
  | cpu => exact step_cpu_of_faulted he hf
  | raise => exact step_raise he
  | trip c => exact step_trip he
  | sync c => exact step_sync he
  | tick c => exact step_tick he

/-- Settles O23: a tick is a change of its own channel. -/
theorem tickTouchesOnlyItsCluster : Obligations.TickTouchesOnlyItsCluster := by
  intro s t c he hx
  cases (step_tick he).symm.trans hx
  have hc : chan? (tickStep c (moved s)) c = (chan? s c).map fun ch => if ch.run then tickChannel s.cfg ch else ch :=
    chan?_modifyChan_same c _ (moved s)
  refine ⟨modifyChan_eq_chans c _ _, fun d hd => chan?_modifyChan_other hd _ (moved s), fun cl hcl hr => ?_,
    fun cl hcl hr => ?_⟩
  · simp [hc, hcl, hr]
  · simp [hc, hcl, hr]

/-- Settles O9: the step on the decoder's answer, for a fetched command and for a placed one. -/
theorem stepRunsDecodedInstruction : Obligations.StepRunsDecodedInstruction := by
  refine ⟨fun s ctx c i hf hd => ?_, fun s nbits w i hd => ?_⟩
  · rw [step_of_fetches hf, hd]
    rfl
  · rw [State.withFetchWord, step_of_fetches (fetches_placeNext _ s), hd]
    rfl

/-- Settles O22: each step is its agent's, put into the spec's words on a channel that exists. -/
theorem environmentSteps : Obligations.EnvironmentSteps := by
  refine ⟨fun s => step_raise, fun s c cl he hcl => ?_, fun s c cl he hcl => ?_⟩
  · rw [step_trip he, tripStep_succ (s := moved s) hcl]
    rfl
  · rw [step_sync he, syncStep_succ (s := moved s) hcl]
    rfl

end Sys2Proof.Proofs

/-! SUPPORT. What a step can write outside the contexts' and the interrupt's registers: the parameters, the staging record, the
three banks and the schedule. It is said once, with what each write keeps (`Writes`, `exec_writes`, `step_writes`); the
statements on sizes, pins and the payload memory, and the invariant's part on the banks, follow by induction over it. -/

namespace Sys2Proof.Proofs

open Machine Spec

/-! ## The writes -/

/-- The two states agree on the parameters, the staging record, the banks and the schedule. -/
structure SameBanks (u t : State) : Prop where
  cfg : t.cfg = u.cfg
  pstage : t.pstage = u.pstage
  guards : t.guards = u.guards
  insts : t.insts = u.insts
  chans : t.chans = u.chans
  sched : t.sched = u.sched

/-- Guard `g` may become `g'`: a canonical payload stays so, and a guard is configured only once bound (R120). -/
structure GuardWrite (c : Config) (g g' : Guard) : Prop where
  payload : payloadWf c.payloadWords g.payload = true → payloadWf c.payloadWords g'.payload = true
  setup : (g.conf = true → g.init = true) → g'.conf = true → g'.init = true

/-- The legal ranges of a cluster's registers (R33, R35, R36, R211), as propositions. -/
structure Ranges (c : Config) (cl : Channel) : Prop where
  period : cl.run = false ∨ cl.prd ≠ 0 ∧ cl.prdSh ≠ 0
  bound : cl.bound = none ∨ cl.run = true
  cmpLoad : cl.cmpLoad ≠ .immediate
  dbLoad : cl.dbLoad = .zero ∨ cl.dbLoad = .zeroOrPeriod
  dbRed : cl.dbRed ≤ dbMax c
  dbFed : cl.dbFed ≤ dbMax c
  hiRun : cl.hiRun ≤ runMax c
  loRun : cl.loRun ≤ runMax c
  aqlb : cl.aqlb = false
  dir : cl.ctrMode = .upDown ∨ cl.ctrDir = true

theorem channelWf_iff {c : Config} {cl : Channel} : channelWf c cl = true ↔ Ranges c cl := by
  simp only [channelWf, Bool.and_eq_true, and_assoc, Bool.or_eq_true, Bool.not_eq_true', beq_iff_eq, bne_iff_ne,
    decide_eq_true_eq]
  constructor
  · rintro ⟨h1, h2, h3, h4, h5, h6, h7, h8, h9, h10⟩
    exact ⟨h1, h2, h3, h4, h5, h6, h7, h8, h9, h10⟩
  · rintro ⟨h1, h2, h3, h4, h5, h6, h7, h8, h9, h10⟩
    exact ⟨h1, h2, h3, h4, h5, h6, h7, h8, h9, h10⟩

/-- A command, a sync or a trip may make `cl` into `cl'`: its pins and its binding are kept, and so are its registers' ranges
if the parameters are legal (R33, R35). -/
structure ClusterWrite (c : Config) (cl cl' : Channel) : Prop where
  pins : pinLevels cl' = pinLevels cl
  bound : cl'.bound = cl.bound
  ranges : configLegal c = true → Ranges c cl → Ranges c cl'

/-- A leg that PWM.INIT binds anew (R140). -/
def freshLeg : PwmInst := { init := true, conf := false, ch := 0, nomPrd := 0, seq := 0 }

/-- The leg `p` that PWM.CONFIG leaves (R144). -/
def configuredLeg (P : Params) (c : Nat) (p : PwmInst) : PwmInst :=
  { p with conf := true, ch := BitVec.ofNat 16 c, nomPrd := P.period, seq := P.seq }

/-- Leg `h` is bound anew and its old channel unbound (R140). -/
def releaseLeg (h : Nat) (p : PwmInst) (u : State) : State := setInst h freshLeg (unbindOld p 0 u)

/-- Leg `h` is configured on channel `c`, and its old channel is unbound if it is another (R144). -/
def configureLeg (h c : Nat) (p : PwmInst) (cl : Channel) (u : State) : State :=
  setInst h (configuredLeg u.pstage c p) (setChan c (configuredCluster u.cfg u.pstage h cl) (unbindOld p c u))

/-- The state is reached from `s` by writes of the commands, or of a sync or a trip. -/
inductive Writes (s : State) : State → Prop
  | refl : Writes s s
  | same {u t : State} (hu : Writes s u) (ht : SameBanks u t) : Writes s t
  | stage {u : State} {p : Params} (hu : Writes s u)
    (hp : configLegal u.cfg = true → paramsLegal u.pstage = true → paramsLegal p = true) : Writes s (setPstage p u)
  | guard {u : State} {h : Nat} {g g' : Guard} (hu : Writes s u) (hg : u.guards[h]? = some g)
    (hw : GuardWrite u.cfg g g') : Writes s (setGuard h g' u)
  | cluster {u : State} {c : Nat} {cl cl' : Channel} (hu : Writes s u) (hcl : chan? u c = some cl)
    (hw : ClusterWrite u.cfg cl cl') : Writes s (setChan c cl' u)
  | sequence {u : State} {h : Nat} {p : PwmInst} (hu : Writes s u) (hp : u.insts[h]? = some p) (q : BitVec 2) :
    Writes s (setInst h { p with seq := q } u)
  | release {u : State} {h : Nat} {p : PwmInst} (hu : Writes s u) (hp : u.insts[h]? = some p) : Writes s (releaseLeg h p u)
  | configure {u : State} {h c : Nat} {p : PwmInst} {cl : Channel} (hu : Writes s u) (hp : u.insts[h]? = some p)
    (hi : p.init = true) (hcl : chan? u c = some cl) (hb : bindable cl h = true) : Writes s (configureLeg h c p cl u)

/-- If the outcome `o` is a next state, it is reached from `s` by writes. -/
def WriteAnswers (s : State) (o : Out) : Prop := ∀ t, o = .next t → Writes s t

section
variable {s t u : State}

theorem SameBanks.advance (u : State) : SameBanks u (advance u) := by constructor <;> simp

theorem SameBanks.setRes (v : Word) (u : State) : SameBanks u (setRes v u) := by constructor <;> simp

theorem SameBanks.setPc (n : Nat) (u : State) : SameBanks u (setPc n u) := by constructor <;> simp

theorem SameBanks.setIe (b : Bool) (u : State) : SameBanks u (setIe b u) := ⟨rfl, rfl, rfl, rfl, rfl, rfl⟩

theorem SameBanks.faultStop (c : Command) (cause : Cause) (u : State) : SameBanks u (faultStop c cause u) :=
  ⟨rfl, rfl, rfl, rfl, rfl, rfl⟩

theorem WriteAnswers.next (h : Writes s t) : WriteAnswers s (.next t) := by
  rintro _ ⟨⟩
  exact h

theorem writeAnswers_raiseFault (i : Instr) (cause : Cause) : WriteAnswers s (raiseFault i cause s) :=
  .next (.same .refl (.faultStop ..))

theorem writeAnswers_finish (hu : Writes s u) : WriteAnswers s (finish u) := .next (.same hu (.advance u))

theorem writeAnswers_finishWith (hu : Writes s u) (v : Word) : WriteAnswers s (finishWith v u) :=
  .next (.same (.same hu (.setRes v u)) (.advance _))

theorem writeAnswers_finishCluster {p : PwmInst} {cl cl' : Channel} (hu : Writes s u)
    (hcl : chan? u p.ch.toNat = some cl) (hw : ClusterWrite u.cfg cl cl') : WriteAnswers s (finishCluster p cl' u) :=
  writeAnswers_finish (.cluster hu hcl hw)

/-! ### The common checks -/

section
variable {need : Setup} {i : Instr} {h : Nat}

theorem writeAnswers_onGuard {body : Guard → Out}
    (hb : ∀ g, s.guards[h]? = some g → setupCheck need g.init g.conf = none → WriteAnswers s (body g)) :
    WriteAnswers s (onGuard need i h s body) := by
  obtain ⟨cause, hf⟩ | ⟨g, hg, hs, he⟩ := onGuard_cases need i h s body
  · rw [hf]
    exact writeAnswers_raiseFault i cause
  · rw [he]
    exact hb g hg hs

theorem writeAnswers_onInst {body : PwmInst → Out}
    (hb : ∀ p, s.insts[h]? = some p → setupCheck need p.init p.conf = none → WriteAnswers s (body p)) :
    WriteAnswers s (onInst need i h s body) := by
  obtain ⟨cause, hf⟩ | ⟨p, hp, hs, he⟩ := onInst_cases need i h s body
  · rw [hf]
    exact writeAnswers_raiseFault i cause
  · rw [he]
    exact hb p hp hs

theorem writeAnswers_onCluster {body : PwmInst → Channel → Out}
    (hb : ∀ p cl, s.insts[h]? = some p → chan? s p.ch.toNat = some cl → WriteAnswers s (body p cl)) :
    WriteAnswers s (onCluster i h s body) := by
  obtain ⟨cause, hf⟩ | ⟨p, -, -, -, -, hn⟩ | ⟨p, cl, hp, -, -, hcl, he⟩ := onCluster_cases i h s body
  · rw [hf]
    exact writeAnswers_raiseFault i cause
  · rw [hn]
    rintro _ ⟨⟩
  · rw [he]
    exact hb p cl hp hcl

theorem writeAnswers_onTransition {change : PwmInst → Channel → Channel}
    (hw : ∀ p cl, ClusterWrite s.cfg cl (change p cl)) : WriteAnswers s (onTransition i h s change) := by
  refine writeAnswers_onCluster fun p cl _ hcl => ?_
  split
  · exact writeAnswers_finishCluster .refl hcl (hw p cl)
  · exact writeAnswers_raiseFault _ _

end

end

/-! ## MEMGRD -/

section
variable {c : Config} {s : State} {h : Nat} {g g' : Guard}

/-- A write that keeps the payload and the setup of a guard. -/
theorem GuardWrite.of_eq (hp : g'.payload = g.payload) (hi : g'.init = g.init) (hc : g'.conf = g.conf) :
    GuardWrite c g g' := ⟨by rw [hp]; exact id, by rw [hi, hc]; exact id⟩

theorem writeAnswers_beginMasked (hg : s.guards[h]? = some g) (granted : Bool) :
    WriteAnswers s (beginMasked h g granted s) := by
  have hu : Writes s (setGuard h { g with saved := s.ie } s) := .guard .refl hg (.of_eq rfl rfl rfl)
  exact writeAnswers_finishWith (.same hu (.setIe _ _)) _

theorem writeAnswers_completeUnmasked (hg : s.guards[h]? = some g) (ready : Bool) :
    WriteAnswers s (completeUnmasked h g ready s) :=
  writeAnswers_finish (.guard .refl hg (.of_eq rfl rfl rfl))

theorem writeAnswers_completeMasked (hg : s.guards[h]? = some g) (ready : Bool) :
    WriteAnswers s (completeMasked h g ready s) := by
  have hu : Writes s (setGuard h { g with ready := ready } s) := .guard .refl hg (.of_eq rfl rfl rfl)
  exact writeAnswers_finish (.same hu (.setIe _ _))

theorem writeAnswers_mgInit (size : Nat) : WriteAnswers s (execMgInit h size s) := by
  refine writeAnswers_onGuard fun g hg _ => ?_
  split
  · exact writeAnswers_finishWith .refl _
  · refine writeAnswers_finishWith (.guard .refl hg ?_) _
    exact ⟨id, fun _ _ => rfl⟩

theorem writeAnswers_mgConfig (dir : Direction) : WriteAnswers s (execMgConfig h dir s) := by
  refine writeAnswers_onGuard fun g hg hs => ?_
  have hinit : g.init = true := (setupCheck_eq_none.mp hs).1 (by simp)
  exact writeAnswers_finish (.guard .refl hg ⟨id, fun _ _ => hinit⟩)

theorem writeAnswers_mgPldwr (index : Nat) (value : Word) : WriteAnswers s (execMgPldwr h index value s) := by
  refine writeAnswers_onGuard fun g hg _ => ?_
  split
  · next hi => exact writeAnswers_finish (.guard .refl hg ⟨fun hp => payloadWf_memWrite hi hp value, id⟩)
  · exact writeAnswers_raiseFault _ _

end

/-! ## The clusters -/

section
variable {c : Config} {cl cl' : Channel}

/-- A write that keeps the pins, the binding and every register with a range. -/
theorem ClusterWrite.of_eq (hp : pinLevels cl' = pinLevels cl) (hb : cl'.bound = cl.bound)
    (hw : channelWf c cl' = channelWf c cl) : ClusterWrite c cl cl' :=
  ⟨hp, hb, fun _ hr => channelWf_iff.mp (hw.trans (channelWf_iff.mpr hr))⟩

theorem ClusterWrite.trans {cl'' : Channel} (h : ClusterWrite c cl cl') (k : ClusterWrite c cl' cl'') :
    ClusterWrite c cl cl'' :=
  ⟨k.pins.trans h.pins, k.bound.trans h.bound, fun hc hr => k.ranges hc (h.ranges hc hr)⟩

/-- The active force has no range. -/
theorem clusterWrite_immediateForce (cl : Channel) : ClusterWrite c cl (immediateForce cl) := by
  rw [immediateForce_eq]
  exact .of_eq rfl rfl rfl

/-- Nor has a transition's shadow (R195, R196). -/
theorem clusterWrite_requestState (force : ForcePair) (mode : DbMode) (cl : Channel) :
    ClusterWrite c cl (requestState force mode cl) := by
  have hsh : ClusterWrite c cl { cl with csfSh := force, dbOutSh := mode } := .of_eq rfl rfl rfl
  exact hsh.trans (clusterWrite_immediateForce _)

theorem prepLegal_prepMap (hc : configLegal c = true) (x : Bool) : prepLegal (prepMap c x) = true := by
  simp only [configLegal, Bool.and_eq_true] at hc
  cases x <;> simp [prepMap, hc]

/-- PWM.PREPARE takes a legal entry (R197, R198). -/
theorem clusterWrite_prepareLoads (x : Bool) (cl : Channel) : ClusterWrite c cl (prepareLoads (prepMap c x) cl) := by
  have hloads : ClusterWrite c cl { cl with dbLoad := (prepMap c x).dbLoad, csfLoad := (prepMap c x).csfLoad } :=
    ⟨rfl, rfl, fun hc hr => { hr with dbLoad := by simpa [prepLegal] using prepLegal_prepMap hc x }⟩
  exact hloads.trans (clusterWrite_immediateForce _)

/-- A scaled period is at least 1 (R165, C6). -/
theorem scaledPeriod_ne_zero (m : CtrMode) (nominal : Nat) (factor : Word) :
    BitVec.ofNat 16 (scaledPeriod m nominal factor) ≠ 0 := by
  have hpos : 0 < scaledPeriod m nominal factor := by rw [scaledPeriod_eq]; omega
  have hlt : scaledPeriod m nominal factor < 65536 := by rw [scaledPeriod_eq]; omega
  intro hz
  have hz' : scaledPeriod m nominal factor % 65536 = 0 := by simpa using congrArg BitVec.toNat hz
  omega

/-- A nonzero period keeps the ranges, whether it is written to the shadow or to both registers (R165). -/
theorem clusterWrite_writePeriod {n : Half} (hn : n ≠ 0) (cl : Channel) : ClusterWrite c cl (writePeriod c n cl) := by
  rw [writePeriod_eq]
  refine ⟨rfl, rfl, fun _ hr => { hr with period := hr.period.imp_right fun ⟨hprd, _⟩ => ⟨?_, hn⟩ }⟩
  show (if c.prdLoad = .immediate then n else cl.prd) ≠ 0
  split
  · exact hn
  · exact hprd

/-- The dead times are saturated at `DB_MAX` (R184). -/
theorem clusterWrite_deadTimes (red fed : Nat) (cl : Channel) :
    ClusterWrite c cl { cl with dbRed := min red (dbMax c), dbFed := min fed (dbMax c) } :=
  ⟨rfl, rfl, fun _ hr => { hr with dbRed := min_le_right _ _, dbFed := min_le_right _ _ }⟩

/-- A sync loads a direction that in sawtooth mode is up (R221). -/
theorem clusterWrite_syncChannel (cl : Channel) : ClusterWrite c cl (syncChannel cl) := by
  rw [syncChannel_eq]
  refine ⟨rfl, rfl, fun _ hr => { hr with dir := ?_ }⟩
  cases cl.ctrMode with
  | up => exact .inr rfl
  | upDown => exact .inl rfl

end

/-! ## What an instruction and a step write -/

section
variable {s t : State} {h : Nat}

/-- A staged period is not 0 (R26 field 1). -/
theorem ne_zero_of_countOfValue {value : Nat} {n : Half} (h : countOfValue 1 value = some n) : n ≠ 0 := by
  unfold countOfValue at h
  split at h
  · cases h
    intro hz
    have hz' : value % 65536 = 0 := by simpa using congrArg BitVec.toNat hz
    omega
  · cases h

/-- Immediate is no staged compare load (R26 field 6). -/
theorem ne_immediate_of_cmpLoadOfValue {value : Nat} {le : LoadEvent} (h : cmpLoadOfValue value = some le) :
    le ≠ .immediate := by
  unfold cmpLoadOfValue at h
  split at h <;> cases h <;> decide

/-- A legal value in one field leaves the staged parameters legal (R142). -/
theorem paramsLegal_stageParam {P Q : Params} {field value : Nat} (hq : stageParam P field value = some Q)
    (hp : paramsLegal P = true) : paramsLegal Q = true := by
  simp only [paramsLegal, Bool.and_eq_true, bne_iff_ne] at hp ⊢
  obtain ⟨hperiod, hload⟩ := hp
  unfold stageParam at hq
  split at hq
  case h_1 | h_3 | h_4 | h_5 =>
    obtain ⟨v, -, rfl⟩ := Option.map_eq_some_iff.mp hq
    exact ⟨hperiod, hload⟩
  case h_2 =>
    obtain ⟨v, hv, rfl⟩ := Option.map_eq_some_iff.mp hq
    exact ⟨ne_zero_of_countOfValue hv, hload⟩
  case h_6 =>
    obtain ⟨-, hq⟩ := Option.ite_none_right_eq_some.mp hq
    cases hq
    exact ⟨hperiod, hload⟩
  case h_7 =>
    obtain ⟨v, hv, rfl⟩ := Option.map_eq_some_iff.mp hq
    exact ⟨hperiod, ne_immediate_of_cmpLoadOfValue hv⟩
  case h_8 => cases hq

theorem writeAnswers_pwmPset (field value : Nat) : WriteAnswers s (execPwmPset field value s) := by
  unfold execPwmPset
  split
  · next p hp => exact writeAnswers_finish (.stage .refl fun _ => paramsLegal_stageParam hp)
  · exact writeAnswers_raiseFault _ _

/-- The default parameters are legal (R141). -/
theorem paramsLegal_defaultParams {c : Config} (hc : configLegal c = true) : paramsLegal c.defaultParams = true := by
  rw [configLegal, Bool.and_eq_true] at hc
  exact hc.2

theorem writeAnswers_pwmPdef : WriteAnswers s (execPwmPdef s) :=
  writeAnswers_finish (.stage .refl fun hc _ => paramsLegal_defaultParams hc)

theorem writeAnswers_pwmInit (size : Nat) : WriteAnswers s (execPwmInit h size s) := by
  refine writeAnswers_onInst fun p hp _ => ?_
  split
  · exact writeAnswers_finishWith .refl _
  · exact writeAnswers_finishWith (.release .refl hp) _

theorem writeAnswers_pwmConfig (c : Nat) : WriteAnswers s (execPwmConfig h c s) := by
  refine writeAnswers_onInst fun p hp hs => ?_
  have hinit : p.init = true := (setupCheck_eq_none.mp hs).1 (by simp)
  split
  · exact writeAnswers_raiseFault _ _
  · next cl hcl =>
    split
    · next hb => exact writeAnswers_finish (.configure .refl hp hinit hcl hb)
    · exact writeAnswers_raiseFault _ _

theorem writeAnswers_pwmScaleprd (factor : Word) : WriteAnswers s (execPwmScaleprd h factor s) := by
  refine writeAnswers_onCluster fun p cl _ hcl => ?_
  split
  · exact writeAnswers_raiseFault _ _
  · exact writeAnswers_finishCluster .refl hcl (clusterWrite_writePeriod (scaledPeriod_ne_zero _ _ _) cl)

theorem writeAnswers_pwmSetseq (seq : Nat) : WriteAnswers s (execPwmSetseq h seq s) := by
  refine writeAnswers_onCluster fun p cl hp hcl => ?_
  split
  · exact writeAnswers_raiseFault _ _
  · exact writeAnswers_finishCluster (.sequence .refl hp _) hcl (.of_eq rfl rfl rfl)

theorem writeAnswers_branchBy (i : Instr) (off : Int) : WriteAnswers s (branchBy i off s) := by
  simp only [branchBy]
  split
  · exact writeAnswers_raiseFault _ _
  · exact .next (.same .refl (.setPc _ _))

theorem writeAnswers_exec (i : Instr) (s : State) : WriteAnswers s (exec i s) := by
  cases i with
  | mgInit h size => exact writeAnswers_mgInit size
  | mgConfig h dir => exact writeAnswers_mgConfig dir
  | mgBeginw | mgBeginr =>
    refine writeAnswers_onGuard fun g hg _ => ?_
    split
    · exact writeAnswers_beginMasked hg _
    · exact writeAnswers_finishWith .refl _
  | mgComplw | mgComplr =>
    refine writeAnswers_onGuard fun g hg _ => ?_
    split
    · exact writeAnswers_completeMasked hg _
    · exact writeAnswers_completeUnmasked hg _
  | mgPldwr h index value => exact writeAnswers_mgPldwr index value
  | mgPldrd =>
    refine writeAnswers_onGuard fun g hg _ => ?_
    split
    · exact writeAnswers_finishWith .refl _
    · exact writeAnswers_raiseFault _ _
  | pwmInit h size => exact writeAnswers_pwmInit size
  | pwmPdef => exact writeAnswers_pwmPdef
  | pwmPset field value => exact writeAnswers_pwmPset field value
  | pwmConfig h c => exact writeAnswers_pwmConfig c
  | pwmScaleprd h factor => exact writeAnswers_pwmScaleprd factor
  | pwmSetseq h seq => exact writeAnswers_pwmSetseq seq
  | pwmGetfull | pwmGetctr | pwmGetdir | pwmGetseq | pwmIsen =>
    exact writeAnswers_onCluster fun _ _ _ _ => writeAnswers_finishWith .refl _
  | pwmSetduty | pwmSetcmpph | pwmSetphase | pwmSettzsafe | pwmEnout | pwmDisout =>
    exact writeAnswers_onCluster fun _ _ _ hcl => writeAnswers_finishCluster .refl hcl (.of_eq rfl rfl rfl)
  | pwmSetdt h red fed =>
    exact writeAnswers_onCluster fun _ cl _ hcl =>
      writeAnswers_finishCluster .refl hcl (clusterWrite_deadTimes red fed cl)
  | pwmSetpassive | pwmSetoper => exact writeAnswers_onTransition fun _ cl => clusterWrite_requestState _ _ cl
  | pwmPrepare => exact writeAnswers_onTransition fun _ cl => clusterWrite_prepareLoads _ cl
  | hBrz off =>
    show WriteAnswers s (execHBrz off s)
    unfold execHBrz
    split
    · exact writeAnswers_branchBy _ off
    · exact writeAnswers_finish .refl
  | hBra off => exact writeAnswers_branchBy _ off
  | hEnd =>
    show WriteAnswers s (execHEnd s)
    unfold execHEnd
    split <;> exact .next (.same .refl ⟨rfl, rfl, rfl, rfl, rfl, rfl⟩)

/-- A change of one channel that a sync or a trip makes. -/
theorem Writes.modifyChan {f : Channel → Channel} (hw : ∀ cl, ClusterWrite s.cfg cl (f cl)) (c : Nat) :
    Writes s (modifyChan c f s) := by
  unfold Machine.modifyChan
  split
  · next cl hcl => exact .cluster .refl hcl (hw cl)
  · exact .refl

/-- Every step but a tick writes so, after the schedule's move. -/
theorem step_writes (hx : step s = .next t) :
    Writes (moved s) t ∨ ∃ c, nextEvent s = .tick c ∧ t = tickStep c (moved s) := by
  cases he : nextEvent s with
  | cpu =>
    left
    cases step_kind hx with
    | agent hne => exact absurd he hne
    | entry => exact .same .refl ⟨rfl, rfl, rfl, rfl, rfl, rfl⟩
    | idle => exact .refl
    | instr _ _ _ hi => exact writeAnswers_exec _ _ t hi
    | bad => exact .same .refl (.faultStop _ _ _)
  | raise =>
    cases (step_raise he).symm.trans hx
    exact .inl (.same .refl ⟨rfl, rfl, rfl, rfl, rfl, rfl⟩)
  | trip c =>
    cases (step_trip he).symm.trans hx
    refine .inl (.modifyChan (fun cl => ?_) c)
    split
    · exact .of_eq rfl rfl rfl
    · exact .of_eq rfl rfl rfl
  | sync c =>
    cases (step_sync he).symm.trans hx
    refine .inl (.modifyChan (fun cl => ?_) c)
    split
    · exact clusterWrite_syncChannel cl
    · exact .of_eq rfl rfl rfl
  | tick c =>
    cases (step_tick he).symm.trans hx
    exact .inr ⟨c, rfl, rfl⟩

end

/-! ## What every write keeps -/

section
variable {s t : State}

/-! ### Sizes and the schedule -/

theorem unbindOld_eq_chans (p : PwmInst) (keep : Nat) (u : State) :
    unbindOld p keep u = { u with chans := (unbindOld p keep u).chans } := by
  unfold unbindOld
  split
  · exact modifyChan_eq_chans ..
  · rfl

@[simp] theorem unbindOld_chans_length (p : PwmInst) (keep : Nat) (u : State) :
    (unbindOld p keep u).chans.length = u.chans.length := by
  unfold unbindOld
  split
  · exact modifyChan_chans_length ..
  · rfl

@[simp] theorem unbindOld_cfg (p : PwmInst) (keep : Nat) (u : State) : (unbindOld p keep u).cfg = u.cfg := by
  rw [unbindOld_eq_chans]

@[simp] theorem unbindOld_guards (p : PwmInst) (keep : Nat) (u : State) : (unbindOld p keep u).guards = u.guards := by
  rw [unbindOld_eq_chans]

@[simp] theorem unbindOld_insts (p : PwmInst) (keep : Nat) (u : State) : (unbindOld p keep u).insts = u.insts := by
  rw [unbindOld_eq_chans]

@[simp] theorem unbindOld_sched (p : PwmInst) (keep : Nat) (u : State) : (unbindOld p keep u).sched = u.sched := by
  rw [unbindOld_eq_chans]

/-- No write changes a parameter, a bank's size or the schedule. -/
theorem Writes.sizes (h : Writes s t) : t.cfg = s.cfg ∧ t.guards.length = s.guards.length ∧
    t.insts.length = s.insts.length ∧ t.chans.length = s.chans.length ∧ t.sched = s.sched := by
  induction h with
  | refl => exact ⟨rfl, rfl, rfl, rfl, rfl⟩
  | same _ ht ih => rwa [ht.cfg, ht.guards, ht.insts, ht.chans, ht.sched]
  | stage _ _ ih => exact ih
  | guard | sequence | cluster => simpa
  | release => simpa [releaseLeg]
  | configure => simpa [configureLeg]

/-! ### Pins -/

theorem legWrites_releaseLeg {h : Nat} {p : PwmInst} (hp : s.insts[h]? = some p) (i : Instr) :
    LegWrites i h s (releaseLeg h p s) := .inst _ (.unbindOld hp 0 .refl)

theorem legWrites_configureLeg {h c : Nat} {p : PwmInst} {cl : Channel} (hp : s.insts[h]? = some p)
    (hcl : chan? s c = some cl) : LegWrites (.pwmConfig h c) h s (configureLeg h c p cl s) := by
  have hcl' : chan? (unbindOld p c s) c = some cl := (chan?_unbindOld_keep p c s).trans hcl
  exact .inst _ (.chan (.inr ⟨h, rfl⟩) hcl' rfl (.unbindOld hp c .refl))

/-- No write changes a pin. -/
theorem Writes.pins (h : Writes s t) (d : Nat) : (chan? t d).map pinLevels = (chan? s d).map pinLevels := by
  induction h with
  | refl => rfl
  | same _ ht ih => rw [chan?, ht.chans, ← ih, chan?]
  | stage _ _ ih | guard _ _ _ ih | sequence _ _ _ ih => exact ih
  | @cluster u c cl cl' _ hcl hw ih =>
    rw [← ih]
    by_cases hd : d = c
    · rw [hd, chan?_setChan_same hcl, hcl, Option.map_some, Option.map_some, hw.pins]
    · rw [chan?_setChan_other hd]
  | release _ hp ih => exact ((legWrites_releaseLeg hp .pwmPdef).pins d).trans ih
  | configure _ hp _ hcl _ ih => exact ((legWrites_configureLeg hp hcl).pins d).trans ih

/-! ### The payload memory -/

/-- Every write keeps the payload memory canonical. -/
theorem Writes.memoryWf (h : Writes s t) (hs : Memory.wf s = true) : Memory.wf t = true := by
  induction h with
  | refl => exact hs
  | same _ ht ih => rwa [Memory.wf_congr ht.guards ht.cfg]
  | stage _ _ ih | cluster _ _ _ ih | sequence _ _ _ ih => exact ih
  | guard _ hg hw ih =>
    exact Memory.wf_setGuard ih (hw.payload (List.all_eq_true.mp ih _ (List.mem_of_getElem? hg)))
  | @release u h p _ _ ih => exact (Memory.wf_congr (unbindOld_guards p 0 u) (unbindOld_cfg p 0 u)).trans ih
  | @configure u h c p cl _ _ _ _ _ ih => exact (Memory.wf_congr (unbindOld_guards p c u) (unbindOld_cfg p c u)).trans ih

end

/-! ## The obligations -/

/-- Settles O60: every write keeps the canonical form, and a tick writes no guard. -/
theorem stepKeepsMemoryCanonical : Obligations.StepKeepsMemoryCanonical := by
  intro s t hs hx
  obtain hw | ⟨c, -, rfl⟩ := step_writes hx
  · exact hw.memoryWf hs
  · rw [Memory.wf_congr (tickStep_guards _ c) (tickStep_cfg _ c)]
    exact hs

/-- Settles O20: no write changes them, and a tick writes the channels in their places. -/
theorem parametersAreFixed : Obligations.ParametersAreFixed := by
  intro s t hx
  obtain hw | ⟨c, -, rfl⟩ := step_writes hx
  · exact hw.sizes
  · have hguards : (tickStep c (moved s)).guards = s.guards := tickStep_guards _ c
    have hinsts : (tickStep c (moved s)).insts = s.insts := tickStep_insts _ c
    exact ⟨tickStep_cfg _ c, by rw [hguards], by rw [hinsts], modifyChan_chans_length c _ (moved s), tickStep_sched _ c⟩

/-- Settles O21: no write changes a pin, and a tick of another channel leaves this one. -/
theorem pinsChangeOnlyAtTicks : Obligations.PinsChangeOnlyAtTicks := by
  intro s t c hx hne
  obtain hw | ⟨d, he, rfl⟩ := step_writes hx
  · exact hw.pins c
  · have hcd : c ≠ d := fun e => hne (e ▸ he)
    rw [show chan? (tickStep d (moved s)) c = chan? s c from chan?_modifyChan_other hcd _ (moved s)]

end Sys2Proof.Proofs

/-! SUPPORT. The invariant (10_state.md sections 3 and 6). Its clauses on the banks (`BanksOk`), with the bindings of R37 as
propositions (`Bindings`), are kept by every write of a step and by a tick; its two clauses on the interrupt and the fault
record by every kind of step. Reset has both. -/

namespace Sys2Proof.Proofs

open Machine Spec

/-! ## Bindings (R37) -/

/-- The leg that channel `c` is bound to, if the channel exists and is bound. -/
def boundAt (s : State) (c : Nat) : Option Nat := (chan? s c).bind Channel.bound

/-- Legs and channels are bound one to one: a configured leg is bound by its channel, and a bound channel is its leg's. -/
structure Bindings (s : State) : Prop where
  leg : ∀ h p, s.insts[h]? = some p → p.conf = true → p.init = true ∧ boundAt s p.ch.toNat = some h
  channel : ∀ c h, boundAt s c = some h → ∃ p, s.insts[h]? = some p ∧ p.conf = true ∧ p.ch.toNat = c

section
variable {s t u : State} {h c : Nat} {p : PwmInst} {cl : Channel}

theorem instBindingOk_iff : instBindingOk s h = true ↔
    ∀ p, s.insts[h]? = some p → p.conf = true → p.init = true ∧ boundAt s p.ch.toNat = some h := by
  unfold instBindingOk
  cases s.insts[h]? with
  | none => simp
  | some p => cases hcl : chan? s p.ch.toNat <;> cases hconf : p.conf <;> simp [boundAt, hcl, hconf]

theorem chanBindingOk_iff : chanBindingOk s c = true ↔
    ∀ h, boundAt s c = some h → ∃ p, s.insts[h]? = some p ∧ p.conf = true ∧ p.ch.toNat = c := by
  unfold chanBindingOk boundAt
  cases chan? s c with
  | none => simp
  | some cl =>
    cases hb : cl.bound with
    | none => simp [hb]
    | some h => cases hp : s.insts[h]? <;> simp [hb, hp]

/-- The invariant's two tables of bindings; beyond its bank each says nothing. -/
theorem bindings_iff : Bindings s ↔
    (∀ h < s.insts.length, instBindingOk s h = true) ∧ (∀ c < s.chans.length + 1, chanBindingOk s c = true) := by
  refine ⟨fun hs => ⟨fun h _ => instBindingOk_iff.mpr (hs.leg h), fun c _ => chanBindingOk_iff.mpr (hs.channel c)⟩,
    fun ⟨hl, hc⟩ => ⟨fun h p hp => ?_, fun c h hb => ?_⟩⟩
  · exact instBindingOk_iff.mp (hl h (List.getElem?_eq_some_iff.mp hp).1) p hp
  · obtain ⟨cl, hcl, -⟩ := Option.bind_eq_some_iff.mp hb
    have hlt : c ≤ s.chans.length := ((chan?_isSome s c).mp (by simp [hcl])).2
    exact chanBindingOk_iff.mp (hc c (by omega)) h hb

/-- The bindings read the legs, and which leg each channel is bound to. -/
theorem Bindings.congr (hs : Bindings s) (hi : t.insts = s.insts) (hb : ∀ d, boundAt t d = boundAt s d) : Bindings t where
  leg h p := by rw [hi, hb]; exact hs.leg h p
  channel d h := by rw [hi, hb]; exact hs.channel d h

/-! ### Channels -/

theorem boundAt_congr (hc : t.chans = s.chans) (d : Nat) : boundAt t d = boundAt s d := by
  rw [boundAt, boundAt, chan?, hc, chan?]

theorem boundAt_setChan (hcl : chan? s c = some cl) (cl' : Channel) (d : Nat) :
    boundAt (setChan c cl' s) d = if d = c then cl'.bound else boundAt s d := by
  split
  · next hd => rw [hd, boundAt, chan?_setChan_same hcl, Option.bind_some]
  · next hd => rw [boundAt, chan?_setChan_other hd, boundAt]

/-- A cluster written with its binding as it was. -/
theorem boundAt_setChan_of_bound_eq {cl' : Channel} (hcl : chan? s c = some cl) (hb : cl'.bound = cl.bound) (d : Nat) :
    boundAt (setChan c cl' s) d = boundAt s d := by
  rw [boundAt_setChan hcl]
  split
  · next hd => rw [hd, hb, boundAt, hcl, Option.bind_some]
  · rfl

theorem boundAt_modifyChan_of_bound_eq {f : Channel → Channel} (hb : ∀ cl, (f cl).bound = cl.bound) (d : Nat) :
    boundAt (modifyChan c f s) d = boundAt s d := by
  unfold modifyChan
  split
  · next cl hcl => exact boundAt_setChan_of_bound_eq hcl (hb cl) d
  · rfl

theorem boundAt_unbind (c d : Nat) : boundAt (unbind c s) d = if d = c then none else boundAt s d := by
  split
  · next hd =>
    rw [hd, boundAt, unbind, chan?_modifyChan_same]
    cases chan? s c <;> rfl
  · next hd => rw [boundAt, unbind, chan?_modifyChan_other hd, boundAt]

theorem boundAt_unbindOld (p : PwmInst) (keep d : Nat) : boundAt (unbindOld p keep s) d =
    if p.conf = true ∧ p.ch.toNat = d ∧ d ≠ keep then none else boundAt s d := by
  unfold unbindOld
  split
  · next hk =>
    rw [Bool.and_eq_true, bne_iff_ne] at hk
    by_cases hd : d = p.ch.toNat
    · simp [boundAt_unbind, hd, hk]
    · simp [boundAt_unbind, hd, Ne.symm hd]
  · next hk =>
    rw [Bool.and_eq_true, bne_iff_ne] at hk
    rw [if_neg]
    rintro ⟨hconf, rfl, hd⟩
    exact hk ⟨hconf, hd⟩

/-- A channel is bound to a leg exactly if the leg is configured on it. -/
theorem Bindings.boundAt_iff (hs : Bindings s) (hp : s.insts[h]? = some p) :
    boundAt s c = some h ↔ p.conf = true ∧ p.ch.toNat = c := by
  refine ⟨fun hb => ?_, fun ⟨hconf, hc⟩ => hc ▸ (hs.leg h p hp hconf).2⟩
  obtain ⟨q, hq, hconf, hc⟩ := hs.channel c h hb
  cases hq.symm.trans hp
  exact ⟨hconf, hc⟩

/-- So unbinding a leg's old channel unbinds every channel of it but the one that is kept, and no other leg's. -/
theorem Bindings.boundAt_unbindOld_iff (hs : Bindings s) (hp : s.insts[h]? = some p) (keep d k : Nat) :
    boundAt (unbindOld p keep s) d = some k ↔ boundAt s d = some k ∧ (k = h → d = keep) := by
  rw [boundAt_unbindOld]
  split
  · next hd =>
    have hb : boundAt s d = some h := (hs.boundAt_iff hp).mpr ⟨hd.1, hd.2.1⟩
    rw [hb]
    simp only [reduceCtorEq, Option.some.injEq, false_iff, not_and]
    rintro rfl hk
    exact hd.2.2 (hk rfl)
  · next hd =>
    refine ⟨fun hb => ⟨hb, ?_⟩, And.left⟩
    rintro rfl
    obtain ⟨hconf, hch⟩ := (hs.boundAt_iff hp).mp hb
    by_contra hne
    exact hd ⟨hconf, hch, hne⟩

/-! ### Legs -/

/-- Leg `h` becomes `p'`: its own channel is the one bound to it, if it is configured, and the other legs keep theirs. -/
theorem Bindings.rebind (hs : Bindings u) {p' : PwmInst} (hp : u.insts[h]? = some p) (hi : t.insts = u.insts.set h p')
    (hinit : p'.conf = true → p'.init = true) (hown : ∀ d, boundAt t d = some h ↔ p'.conf = true ∧ p'.ch.toNat = d)
    (hother : ∀ d k, k ≠ h → (boundAt t d = some k ↔ boundAt u d = some k)) : Bindings t := by
  have hlt : h < u.insts.length := (List.getElem?_eq_some_iff.mp hp).1
  refine ⟨fun k q hq hconf => ?_, fun d k hb => ?_⟩
  · rw [hi] at hq
    by_cases hk : k = h
    · subst hk
      rw [List.getElem?_set_self hlt] at hq
      cases hq
      exact ⟨hinit hconf, (hown _).mpr ⟨hconf, rfl⟩⟩
    · rw [List.getElem?_set_ne (Ne.symm hk)] at hq
      obtain ⟨hqi, hqb⟩ := hs.leg k q hq hconf
      exact ⟨hqi, (hother _ k hk).mpr hqb⟩
  · rw [hi]
    by_cases hk : k = h
    · subst hk
      exact ⟨p', List.getElem?_set_self hlt, (hown d).mp hb⟩
    · rw [List.getElem?_set_ne (Ne.symm hk)]
      exact hs.channel d k ((hother d k hk).mp hb)

theorem Bindings.releaseLeg (hs : Bindings u) (hp : u.insts[h]? = some p) : Bindings (releaseLeg h p u) := by
  have hb (d k : Nat) : boundAt (Proofs.releaseLeg h p u) d = some k ↔ boundAt u d = some k ∧ (k = h → d = 0) :=
    hs.boundAt_unbindOld_iff hp 0 d k
  refine hs.rebind hp (p' := freshLeg) (by simp [Proofs.releaseLeg]) (fun _ => rfl) (fun d => ?_) (fun d k hk => ?_)
  · have hzero : ¬ (boundAt u d = some h ∧ d = 0) := by
      rintro ⟨hd, rfl⟩
      cases hd
    simpa [hb, freshLeg] using hzero
  · simp [hb, hk]

theorem Bindings.configureLeg (hs : Bindings u) (hp : u.insts[h]? = some p) (hi : p.init = true)
    (hcl : chan? u c = some cl) (hbind : bindable cl h = true) (hc : c < 65536) :
    Bindings (configureLeg h c p cl u) := by
  have hcl' : chan? (unbindOld p c u) c = some cl := (chan?_unbindOld_keep p c u).trans hcl
  have hb (d k : Nat) : boundAt (Proofs.configureLeg h c p cl u) d = some k ↔
      if d = c then k = h else boundAt u d = some k ∧ k ≠ h := by
    refine (Eq.congr_left (boundAt_setChan hcl' _ d)).trans ?_
    split
    · simp [configuredCluster, eq_comm]
    · next hd => simp [hs.boundAt_unbindOld_iff hp, hd]
  have hch : (configuredLeg u.pstage c p).ch.toNat = c := by simp [configuredLeg, Nat.mod_eq_of_lt hc]
  refine hs.rebind hp (p' := configuredLeg u.pstage c p) (by simp [Proofs.configureLeg]) (fun _ => hi) (fun d => ?_)
    (fun d k hk => ?_)
  · rw [hb, hch]
    simp [configuredLeg, eq_comm]
  · rw [hb]
    split
    · next hd =>
      have hold : boundAt u c = cl.bound := by rw [boundAt, hcl, Option.bind_some]
      obtain h0 | h0 := bindable_iff.mp hbind <;> simp [hd, hold, h0, hk, Ne.symm hk]
    · simp [hk]

end

/-! ## The banks -/

/-- Every cluster's registers are in range. -/
def ChansOk (s : State) : Prop := ∀ d cl, chan? s d = some cl → Ranges s.cfg cl

/-- The invariant's clauses on the parameters, the staging record and the banks. -/
structure BanksOk (s : State) : Prop where
  config : configLegal s.cfg = true
  guardCount : s.guards.length ≤ 64
  instCount : s.insts.length ≤ 64
  chanCount : s.chans.length ≤ 65535
  staged : paramsLegal s.pstage = true
  guards : ∀ g ∈ s.guards, guardWf s.cfg g = true
  chans : ChansOk s
  bindings : Bindings s

section
variable {c : Config} {s t u : State} {cl cl' : Channel}

theorem mem_chans_iff : cl ∈ s.chans ↔ ∃ d, chan? s d = some cl := by
  refine ⟨fun hmem => ?_, fun ⟨d, hd⟩ => ?_⟩
  · obtain ⟨k, hk⟩ := List.mem_iff_getElem?.mp hmem
    exact ⟨k + 1, hk⟩
  · cases d with
    | zero => cases hd
    | succ k => exact List.mem_of_getElem? hd

theorem inv_iff : Inv s ↔ BanksOk s ∧ (s.hiActive = true → s.ieAtEntry = true) ∧ faultRecordOk s = true := by
  have hchans : (∀ cl ∈ s.chans, channelWf s.cfg cl = true) ↔ ChansOk s := by
    simp only [ChansOk, mem_chans_iff, channelWf_iff, forall_exists_index]
    exact forall_comm
  refine ⟨fun hs => ⟨⟨hs.config, hs.guardCount, hs.instCount, hs.chanCount, hs.staged, hs.guards, hchans.mp hs.chans,
    bindings_iff.mpr ⟨hs.instBinding, hs.chanBinding⟩⟩, hs.entryMask, hs.faultRecord⟩, fun ⟨hb, hmask, hrec⟩ => ?_⟩
  obtain ⟨hinst, hchan⟩ := bindings_iff.mp hb.bindings
  exact ⟨hb.config, hb.guardCount, hb.instCount, hb.chanCount, hb.staged, hb.guards, hchans.mpr hb.chans, hinst, hchan, hmask,
    hrec⟩

/-- A guard is configured only once bound, and its payload is canonical (R120). -/
theorem guardWf_iff {g : Guard} :
    guardWf c g = true ↔ (g.conf = true → g.init = true) ∧ payloadWf c.payloadWords g.payload = true := by
  cases hg : g.conf <;> simp [guardWf, hg]

theorem GuardWrite.guardWf {g g' : Guard} (hw : GuardWrite c g g') (hg : guardWf c g = true) : guardWf c g' = true := by
  obtain ⟨hsetup, hpayload⟩ := guardWf_iff.mp hg
  exact guardWf_iff.mpr ⟨hw.setup hsetup, hw.payload hpayload⟩

/-! ### The clusters' ranges -/

theorem ChansOk.congr (hs : ChansOk s) (hcfg : t.cfg = s.cfg) (hc : t.chans = s.chans) : ChansOk t := by
  intro d cl hcl
  rw [hcfg]
  exact hs d cl (by rwa [chan?, hc] at hcl)

theorem ChansOk.setChan (hs : ChansOk s) {d : Nat} (hcl : chan? s d = some cl) (hr : Ranges s.cfg cl') :
    ChansOk (setChan d cl' s) := by
  intro e x hx
  by_cases he : e = d
  · rw [he, chan?_setChan_same hcl] at hx
    cases hx
    exact hr
  · rw [chan?_setChan_other he] at hx
    exact hs e x hx

theorem ChansOk.modifyChan (hs : ChansOk s) {f : Channel → Channel} (hf : ∀ cl, Ranges s.cfg cl → Ranges s.cfg (f cl))
    (d : Nat) : ChansOk (modifyChan d f s) := by
  unfold Machine.modifyChan
  split
  · next cl hcl => exact hs.setChan hcl (hf cl (hs d cl hcl))
  · exact hs

/-- An unbound cluster keeps running (R306). -/
theorem ChansOk.unbindOld (hs : ChansOk s) (p : PwmInst) (keep : Nat) : ChansOk (unbindOld p keep s) := by
  unfold Machine.unbindOld
  split
  · exact hs.modifyChan (f := fun cl => { cl with bound := none }) (fun _ hr => { hr with bound := .inl rfl }) _
  · exact hs

/-- PWM.CONFIG writes every register in its range (R144). -/
theorem ranges_configuredCluster {P : Params} (hP : paramsLegal P = true) (h : Nat) (cl : Channel) :
    Ranges c (configuredCluster c P h cl) := by
  simp only [paramsLegal, Bool.and_eq_true, bne_iff_ne] at hP
  obtain ⟨hperiod, hload⟩ := hP
  exact ⟨.inr ⟨hperiod, hperiod⟩, .inr rfl, hload, .inl rfl, min_le_right _ _, min_le_right _ _, Nat.zero_le _, le_refl _,
    rfl, .inr rfl⟩

/-- In sawtooth mode the counter counts up. -/
theorem nextDir_up (prd ctr ctr' : Nat) : nextDir .up prd ctr ctr' = true := rfl

/-- A tick keeps the ranges: it loads a period only from its shadow, and saturates the run counters (R214, R217). -/
theorem ranges_tickChannel (hr : Ranges c cl) : Ranges c (tickChannel c cl) where
  period := by
    rw [tickChannel_run, tickChannel_prd, tickChannel_prdSh]
    refine hr.period.imp_right fun ⟨hprd, hsh⟩ => ⟨?_, hsh⟩
    split
    · exact hsh
    · exact hprd
  bound := by simpa using hr.bound
  cmpLoad := by simpa using hr.cmpLoad
  dbLoad := by simpa using hr.dbLoad
  dbRed := by simpa using hr.dbRed
  dbFed := by simpa using hr.dbFed
  hiRun := by
    rw [tickChannel_hiRun]
    split
    · exact min_le_right _ _
    · exact Nat.zero_le _
  loRun := by
    rw [tickChannel_loRun]
    split
    · exact Nat.zero_le _
    · exact min_le_right _ _
  aqlb := by simpa using hr.aqlb
  dir := by
    rw [tickChannel_ctrMode, tickChannel_ctrDir]
    cases hm : cl.ctrMode with
    | up => exact .inr (by rw [tickDir, hm, nextDir_up])
    | upDown => exact .inl rfl

/-! ### Every write keeps the banks -/

theorem BanksOk.same (hs : BanksOk u) (ht : SameBanks u t) : BanksOk t where
  config := by rw [ht.cfg]; exact hs.config
  guardCount := by rw [ht.guards]; exact hs.guardCount
  instCount := by rw [ht.insts]; exact hs.instCount
  chanCount := by rw [ht.chans]; exact hs.chanCount
  staged := by rw [ht.pstage]; exact hs.staged
  guards := by rw [ht.guards, ht.cfg]; exact hs.guards
  chans := hs.chans.congr ht.cfg ht.chans
  bindings := hs.bindings.congr ht.insts (boundAt_congr ht.chans)

theorem BanksOk.setGuard (hs : BanksOk u) {h : Nat} {g g' : Guard} (hg : u.guards[h]? = some g)
    (hw : GuardWrite u.cfg g g') : BanksOk (setGuard h g' u) :=
  { hs with
    guardCount := by simpa using hs.guardCount
    guards := fun x hx => by
      obtain hx | rfl := List.mem_or_eq_of_mem_set hx
      · exact hs.guards x hx
      · exact hw.guardWf (hs.guards g (List.mem_of_getElem? hg))
    bindings := hs.bindings.congr rfl fun _ => rfl }

/-- A write of legs and clusters keeps the banks' clauses if it keeps their numbers, the ranges and the bindings. -/
theorem BanksOk.of_frame (hs : BanksOk u) (ht : t = { u with insts := t.insts, chans := t.chans })
    (hi : t.insts.length = u.insts.length) (hc : t.chans.length = u.chans.length) (hr : ChansOk t) (hb : Bindings t) :
    BanksOk t where
  config := by rw [ht]; exact hs.config
  guardCount := by rw [ht]; exact hs.guardCount
  instCount := hi ▸ hs.instCount
  chanCount := hc ▸ hs.chanCount
  staged := by rw [ht]; exact hs.staged
  guards := by rw [ht]; exact hs.guards
  chans := hr
  bindings := hb

theorem BanksOk.setChan (hs : BanksOk u) {d : Nat} (hcl : chan? u d = some cl) (hw : ClusterWrite u.cfg cl cl') :
    BanksOk (setChan d cl' u) :=
  hs.of_frame rfl rfl (chanPut_length ..) (hs.chans.setChan hcl (hw.ranges hs.config (hs.chans _ _ hcl)))
    (hs.bindings.congr rfl (boundAt_setChan_of_bound_eq hcl hw.bound))

/-- The sequence of a leg is no part of its binding. -/
theorem BanksOk.setSequence (hs : BanksOk u) {h : Nat} {p : PwmInst} (hp : u.insts[h]? = some p) (q : BitVec 2) :
    BanksOk (setInst h { p with seq := q } u) := by
  have hb : Bindings (setInst h { p with seq := q } u) :=
    hs.bindings.rebind hp rfl (fun hconf => (hs.bindings.leg h p hp hconf).1) (fun _ => hs.bindings.boundAt_iff (p := p) hp)
      (fun _ _ _ => Iff.rfl)
  exact hs.of_frame rfl List.length_set rfl (hs.chans.congr rfl rfl) hb

theorem BanksOk.releaseLeg (hs : BanksOk u) {h : Nat} {p : PwmInst} (hp : u.insts[h]? = some p) :
    BanksOk (releaseLeg h p u) := by
  have hr : ChansOk (Proofs.releaseLeg h p u) := (hs.chans.unbindOld p 0).congr rfl rfl
  exact hs.of_frame (legWrites_releaseLeg hp .pwmPdef).frame (by simp [Proofs.releaseLeg]) (by simp [Proofs.releaseLeg]) hr
    (hs.bindings.releaseLeg hp)

theorem BanksOk.configureLeg (hs : BanksOk u) {h d : Nat} {p : PwmInst} (hp : u.insts[h]? = some p) (hi : p.init = true)
    (hcl : chan? u d = some cl) (hb : bindable cl h = true) : BanksOk (configureLeg h d p cl u) := by
  have hd : d < 65536 := by
    have hle : d ≤ u.chans.length := ((chan?_isSome u d).mp (by simp [hcl])).2
    have := hs.chanCount
    omega
  have hcl' : chan? (unbindOld p d u) d = some cl := (chan?_unbindOld_keep p d u).trans hcl
  have hcluster : Ranges (unbindOld p d u).cfg (configuredCluster u.cfg u.pstage h cl) := by
    rw [unbindOld_cfg]
    exact ranges_configuredCluster hs.staged h cl
  have hr : ChansOk (Proofs.configureLeg h d p cl u) := ((hs.chans.unbindOld p d).setChan hcl' hcluster).congr rfl rfl
  exact hs.of_frame (legWrites_configureLeg hp hcl).frame (by simp [Proofs.configureLeg]) (by simp [Proofs.configureLeg]) hr
    (hs.bindings.configureLeg hp hi hcl hb hd)

theorem BanksOk.setPstage (hs : BanksOk u) {p : Params} (hp : paramsLegal p = true) : BanksOk (setPstage p u) :=
  { hs with staged := hp, bindings := hs.bindings.congr rfl fun _ => rfl }

/-- Every write keeps the invariant's clauses on the banks. -/
theorem Writes.banksOk (h : Writes s t) (hs : BanksOk s) : BanksOk t := by
  induction h with
  | refl => exact hs
  | same _ ht ih => exact ih.same ht
  | stage _ hp ih => exact ih.setPstage (hp ih.config ih.staged)
  | guard _ hg hw ih => exact ih.setGuard hg hw
  | cluster _ hcl hw ih => exact ih.setChan hcl hw
  | sequence _ hp q ih => exact ih.setSequence hp q
  | release _ hp ih => exact ih.releaseLeg hp
  | configure _ hp hi hcl hb ih => exact ih.configureLeg hp hi hcl hb

/-- A tick keeps them. -/
theorem BanksOk.tickStep (hs : BanksOk u) (d : Nat) : BanksOk (tickStep d u) := by
  have hr : ChansOk (Machine.tickStep d u) := by
    refine hs.chans.modifyChan (fun cl hcl => ?_) d
    split
    · exact ranges_tickChannel hcl
    · exact hcl
  have hb : Bindings (Machine.tickStep d u) := by
    refine hs.bindings.congr (tickStep_insts u d) (boundAt_modifyChan_of_bound_eq fun cl => ?_)
    split
    · exact tickChannel_bound ..
    · rfl
  have hinsts : (Machine.tickStep d u).insts = u.insts := tickStep_insts u d
  refine hs.of_frame ?_ (by rw [hinsts]) (modifyChan_chans_length d _ u) hr hb
  rw [hinsts]
  exact modifyChan_eq_chans d _ u

/-- Every step keeps the invariant's clauses on the banks. -/
theorem BanksOk.step (hs : BanksOk s) (hx : step s = .next t) : BanksOk t := by
  have hm : BanksOk (moved s) := { hs with bindings := hs.bindings.congr rfl fun _ => rfl }
  obtain hw | ⟨c, -, rfl⟩ := step_writes hx
  · exact hw.banksOk hm
  · exact hm.tickStep c

end

/-! ## The interrupt and the fault record -/

section
variable {i : Instr} {s t u : State}

/-- The record depends on `FAULTED` and the cause alone. -/
theorem faultRecordOk_congr (hf : t.faulted = s.faulted) (hc : t.faultCause = s.faultCause) :
    faultRecordOk t = faultRecordOk s := by
  rw [faultRecordOk, hf, hc, faultRecordOk]

/-- A fault-stop leaves a code of R257. -/
theorem faultRecordOk_faultStop (c : Command) (cause : Cause) (s : State) : faultRecordOk (faultStop c cause s) = true := by
  obtain ⟨hlo, hhi⟩ := causeCode_mem_range cause
  simp [faultRecordOk, hlo, hhi]

theorem BankWrites.faultCause_eq (h : BankWrites i s u) : u.faultCause = s.faultCause := by rw [h.frame]

theorem BankWrites.ieAtEntry_eq (h : BankWrites i s u) : u.ieAtEntry = s.ieAtEntry := by rw [h.frame]

/-- An instruction keeps the fault record legal. -/
theorem Effect.faultRecordOk (h : Effect i s t) (hs : faultRecordOk s = true) : faultRecordOk t = true := by
  cases h with
  | fault cause => exact faultRecordOk_faultStop _ cause s
  | done hu | answer _ _ hu =>
    exact (faultRecordOk_congr (by simp [hu.faulted_eq]) (by simp [hu.faultCause_eq])).trans hs
  | jump _ n => exact (faultRecordOk_congr (by simp) (by simp)).trans hs
  | endLo | endHi => exact hs

/-- An instruction of HI keeps the mask that its entry saved, or returns. -/
theorem Effect.entryMask (h : Effect i s t) (hs : s.hiActive = true → s.ieAtEntry = true) :
    t.hiActive = true → t.ieAtEntry = true := by
  cases h with
  | fault | endLo => exact hs
  | done hu | answer _ _ hu => simpa [hu.hiActive_eq, hu.ieAtEntry_eq] using hs
  | jump _ n => simpa using hs
  | endHi => intro ha; cases ha

theorem StepKind.faultRecordOk (h : StepKind s t) (hs : faultRecordOk s = true) : faultRecordOk t = true := by
  cases h with
  | agent | entry | idle => exact hs
  | instr _ _ _ hx => exact (exec_effect hx).faultRecordOk hs
  | bad => exact faultRecordOk_faultStop _ _ _

/-- Interrupt entry saves `IE = 1` (R254). -/
theorem StepKind.entryMask (h : StepKind s t) (hs : s.hiActive = true → s.ieAtEntry = true) :
    t.hiActive = true → t.ieAtEntry = true := by
  cases h with
  | agent | idle | bad => exact hs
  | entry _ hen => exact fun _ => (entryEnabled_eq_true_iff.mp hen).2.1
  | instr _ _ _ hx => exact (exec_effect hx).entryMask hs

end

/-! ## Reset -/

section
variable {c : Config} {nG nP nC : Nat} {lo hi : List Command}

theorem eq_resetChannel_of_chan? {d : Nat} {cl : Channel} (hcl : chan? (State.resetOf c nG nP nC lo hi) d = some cl) :
    cl = resetChannel c :=
  List.eq_of_mem_replicate (mem_chans_iff.mpr ⟨d, hcl⟩)

theorem ranges_resetChannel : Ranges c (resetChannel c) :=
  ⟨.inl rfl, .inl rfl, by simp [resetChannel], .inl rfl, Nat.zero_le _, Nat.zero_le _, Nat.zero_le _, le_refl _, rfl,
    .inr rfl⟩

/-- At reset no leg is configured and no channel is bound (R280). -/
theorem bindings_resetOf : Bindings (State.resetOf c nG nP nC lo hi) where
  leg h p hp hconf := by
    cases List.eq_of_mem_replicate (List.mem_of_getElem? hp)
    cases hconf
  channel d h hb := by
    obtain ⟨cl, hcl, hbound⟩ := Option.bind_eq_some_iff.mp hb
    cases eq_resetChannel_of_chan? hcl
    cases hbound

/-- Reset meets the invariant for legal parameters, and banks that their handles and channel ids can name. -/
theorem inv_resetOf (hc : configLegal c = true) (hg : nG ≤ 64) (hp : nP ≤ 64) (hn : nC ≤ 65535) :
    Inv (State.resetOf c nG nP nC lo hi) := by
  refine inv_iff.mpr ⟨?_, nofun, rfl⟩
  exact {
    config := hc
    guardCount := by simpa [State.resetOf] using hg
    instCount := by simpa [State.resetOf] using hp
    chanCount := by simpa [State.resetOf] using hn
    staged := paramsLegal_defaultParams hc
    guards := fun g hg => by
      cases List.eq_of_mem_replicate hg
      rfl
    chans := fun d cl hcl => by
      cases eq_resetChannel_of_chan? hcl
      exact ranges_resetChannel
    bindings := bindings_resetOf }

end

/-! ## The obligations -/

/-- Settles O58: the clauses on the banks by what a step writes, the other two by its kind. -/
theorem stepKeepsInvariant : Obligations.StepKeepsInvariant := by
  intro s t hs hx
  obtain ⟨hbanks, hmask, hrec⟩ := inv_iff.mp hs
  have hk : StepKind s t := step_kind hx
  exact inv_iff.mpr ⟨hbanks.step hx, hk.entryMask hmask, hk.faultRecordOk hrec⟩

/-- Settles O57: the runner defaults are legal parameters. -/
theorem resetMeetsInvariant : Obligations.ResetMeetsInvariant :=
  ⟨inv_resetOf (by decide) (by decide) (by decide) (by decide), rfl, fun _ _ _ _ _ _ => inv_resetOf⟩

end Sys2Proof.Proofs

/-! SUPPORT. The statements of 46_pwm_timebase.md on a cluster's ticks, and those of 45_pwm_output.md and 44_pwm_sequence.md that
rest on them. One tick is described by its counter, its loads, its latch and its pins; a property of many ticks is an invariant
of one, or an induction over the count. -/

namespace Sys2Proof.Proofs

open Machine Spec

/-! ## The counter (R211) -/

theorem toNat_pos_iff {n : Half} : 0 < n.toNat ↔ n ≠ 0 := by
  rw [Nat.pos_iff_ne_zero, ne_eq, ne_eq, ← BitVec.toNat_inj]
  rfl

section
variable {c : Config} {ch : Channel} {m : CtrMode} {prd ctr : Nat} {dir : Bool}

/-- A counter within a nonzero period stays within it. -/
theorem nextCount_le (hp : prd ≠ 0) (hc : ctr ≤ prd) : nextCount m prd ctr dir ≤ prd := by
  cases m with
  | up =>
    simp only [nextCount]
    split <;> omega
  | upDown =>
    simp only [nextCount]
    split <;> split <;> omega

/-- The new counter fits in 16 bits, within the period or not. -/
theorem nextCount_lt (hp : prd < 65536) (hc : ctr < 65536) : nextCount m prd ctr dir < 65536 := by
  cases m with
  | up =>
    simp only [nextCount]
    split <;> omega
  | upDown =>
    simp only [nextCount]
    split <;> split <;> omega

theorem tickChannel_ctr_toNat (c : Config) (ch : Channel) : (tickChannel c ch).ctr.toNat = tickCount ch := by
  have hlt : tickCount ch < 65536 := nextCount_lt ch.prd.isLt ch.ctr.isLt
  rw [tickChannel_ctr, BitVec.toNat_ofNat, Nat.mod_eq_of_lt hlt]

/-- The zero event is the new counter 0 (R212). -/
theorem tickZro_iff : tickZro ch = true ↔ (tickChannel c ch).ctr = 0 := by
  rw [← BitVec.toNat_inj, tickChannel_ctr_toNat, tickZro, beq_iff_eq]
  rfl

/-- The period event is the new counter equal to the old period (R212). -/
theorem tickPrde_iff : tickPrde ch = true ↔ (tickChannel c ch).ctr = ch.prd := by
  rw [← BitVec.toNat_inj, tickChannel_ctr_toNat, tickPrde, beq_iff_eq]

/-- A load event fires at the events it names (R214). -/
theorem fires_iff {le : LoadEvent} {zro prde : Bool} : fires le zro prde = true ↔
    (le = .zero ∧ zro = true) ∨ (le = .period ∧ prde = true) ∨ (le = .zeroOrPeriod ∧ (zro = true ∨ prde = true)) := by
  cases le <;> simp [fires]

/-! ### A settled period -/

/-- The counter mode is `m`, and the period is `P` in both registers. -/
structure Settled (m : CtrMode) (P : Half) (ch : Channel) : Prop where
  mode : ch.ctrMode = m
  prd : ch.prd = P
  prdSh : ch.prdSh = P

variable {P : Half}

/-- A tick that loads the period loads the one it has. -/
theorem Settled.tick (hs : Settled m P ch) (c : Config) : Settled m P (tickChannel c ch) where
  mode := (tickChannel_ctrMode c ch).trans hs.mode
  prd := by rw [tickChannel_prd, hs.prdSh, hs.prd, ite_self]
  prdSh := (tickChannel_prdSh c ch).trans hs.prdSh

theorem Settled.iterate (hs : Settled m P ch) (c : Config) (n : Nat) : Settled m P ((tickChannel c)^[n] ch) :=
  Function.Iterate.rec (Settled m P) hs (fun _ h => h.tick c) n

/-! ### Sawtooth -/

theorem Settled.tickCount_up (hs : Settled .up P ch) :
    tickCount ch = if P.toNat ≤ ch.ctr.toNat then 0 else ch.ctr.toNat + 1 := by
  rw [tickCount, hs.mode, hs.prd]
  rfl

/-- From count 0 the counter counts the ticks up to the period. -/
theorem Settled.sawtooth_count (hs : Settled .up P ch) (h0 : ch.ctr = 0) (c : Config) {k : Nat} (hk : k ≤ P.toNat) :
    ((tickChannel c)^[k] ch).ctr.toNat = k := by
  induction k with
  | zero => simp [h0]
  | succ k ih =>
    have hctr := ih (by omega)
    rw [Function.iterate_succ_apply', tickChannel_ctr_toNat, (hs.iterate c k).tickCount_up, hctr, if_neg (by omega)]

/-- At the period it wraps. -/
theorem Settled.sawtooth_wrap (hs : Settled .up P ch) (h0 : ch.ctr = 0) (c : Config) :
    tickCount ((tickChannel c)^[P.toNat] ch) = 0 := by
  rw [(hs.iterate c _).tickCount_up, hs.sawtooth_count h0 c le_rfl, if_pos le_rfl]

/-! ### Symmetric -/

/-- Counting up below the period. -/
theorem Settled.tick_forward (hs : Settled .upDown P ch) (hd : ch.ctrDir = true) (hlt : ch.ctr.toNat < P.toNat)
    (c : Config) : (tickChannel c ch).ctr.toNat = ch.ctr.toNat + 1 ∧
      (tickChannel c ch).ctrDir = decide (ch.ctr.toNat + 1 < P.toNat) := by
  have hcount : tickCount ch = ch.ctr.toNat + 1 := by simp [tickCount, nextCount, hs.mode, hs.prd, hd, hlt]
  refine ⟨(tickChannel_ctr_toNat c ch).trans hcount, ?_⟩
  rw [tickChannel_ctrDir, tickDir, hcount, hs.mode, hs.prd]
  by_cases h : ch.ctr.toNat + 1 < P.toNat
  · simp [nextDir, h]
  · simp [nextDir, h, not_lt.mp h]

/-- Counting down above 0. -/
theorem Settled.tick_backward (hs : Settled .upDown P ch) (hd : ch.ctrDir = false) (hpos : 0 < ch.ctr.toNat)
    (hle : ch.ctr.toNat ≤ P.toNat) (c : Config) : (tickChannel c ch).ctr.toNat = ch.ctr.toNat - 1 ∧
      (tickChannel c ch).ctrDir = decide (ch.ctr.toNat - 1 = 0) := by
  have hcount : tickCount ch = ch.ctr.toNat - 1 := by simp [tickCount, nextCount, hs.mode, hd, hpos]
  refine ⟨(tickChannel_ctr_toNat c ch).trans hcount, ?_⟩
  rw [tickChannel_ctrDir, tickDir, hcount, hs.mode, hs.prd]
  have hnot : ¬ P.toNat ≤ ch.ctr.toNat - 1 := by omega
  have hdown : ¬ ch.ctr.toNat < ch.ctr.toNat - 1 := by omega
  by_cases h : ch.ctr.toNat - 1 = 0
  · simp [nextDir, h]
    omega
  · simp [nextDir, hnot, hdown, h]

/-- From count 0 the counter climbs to the period, and turns there. -/
theorem Settled.symmetric_climb (hs : Settled .upDown P ch) (hP : P ≠ 0) (h0 : ch.ctr = 0) (hd : ch.ctrDir = true)
    (c : Config) {k : Nat} (hk : k ≤ P.toNat) :
    ((tickChannel c)^[k] ch).ctr.toNat = k ∧ ((tickChannel c)^[k] ch).ctrDir = decide (k < P.toNat) := by
  induction k with
  | zero =>
    have hpos : 0 < P.toNat := toNat_pos_iff.mpr hP
    simp [h0, hd, hpos]
  | succ k ih =>
    obtain ⟨hctr, hdir⟩ := ih (by omega)
    have hlt : k < P.toNat := hk
    have hstep := (hs.iterate c k).tick_forward (by simp [hdir, hlt]) (by omega) c
    rwa [hctr, ← Function.iterate_succ_apply' (tickChannel c)] at hstep

/-- From the period it descends to 0, and turns there. -/
theorem Settled.symmetric_descend (hs : Settled .upDown P ch) (hP : P ≠ 0) (h0 : ch.ctr = 0) (hd : ch.ctrDir = true)
    (c : Config) {k : Nat} (hk : k ≤ P.toNat) :
    ((tickChannel c)^[P.toNat + k] ch).ctr.toNat = P.toNat - k ∧
      ((tickChannel c)^[P.toNat + k] ch).ctrDir = decide (P.toNat - k = 0) := by
  induction k with
  | zero =>
    obtain ⟨hctr, hdir⟩ := hs.symmetric_climb hP h0 hd c le_rfl
    have hne : P.toNat ≠ 0 := (toNat_pos_iff.mpr hP).ne'
    simpa [hne] using And.intro hctr hdir
  | succ k ih =>
    obtain ⟨hctr, hdir⟩ := ih (by omega)
    have hne : P.toNat - k ≠ 0 := by omega
    have hstep := (hs.iterate c (P.toNat + k)).tick_backward (by simp [hdir, hne]) (by omega) (by omega) c
    rwa [hctr, ← Function.iterate_succ_apply' (tickChannel c), Nat.sub_sub] at hstep

end

/-! ## The action qualifier of sequence 1 (R182, R213 to R216) -/

section
variable {c : Config} {ch : Channel} {P C : Half}

/-- Sawtooth mode with the actions of sequence 1 and a settled compare `C`. -/
structure SettledSequence1 (P C : Half) (ch : Channel) : Prop extends Settled .up P ch where
  cmpa : ch.cmpa = C
  cmpaSh : ch.cmpaSh = C
  aqa : ch.aqa = aqActions runnerAqTable 1 .up

/-- The compare that a tick leaves is the settled one. -/
theorem SettledSequence1.tickCmpa_eq (hs : SettledSequence1 P C ch) : tickCmpa ch = C := by
  rw [tickCmpa, hs.cmpa, hs.cmpaSh, ite_self]

theorem SettledSequence1.tick (hs : SettledSequence1 P C ch) (c : Config) : SettledSequence1 P C (tickChannel c ch) where
  toSettled := hs.toSettled.tick c
  cmpa := (tickChannel_cmpa c ch).trans hs.tickCmpa_eq
  cmpaSh := (tickChannel_cmpaSh c ch).trans hs.cmpaSh
  aqa := (tickChannel_aqa c ch).trans hs.aqa

theorem SettledSequence1.iterate (hs : SettledSequence1 P C ch) (c : Config) (n : Nat) :
    SettledSequence1 P C ((tickChannel c)^[n] ch) :=
  Function.Iterate.rec (SettledSequence1 P C) hs (fun _ h => h.tick c) n

/-- The latch is cleared at the compare, else set at zero, else kept: the period has no action, so it shadows neither. -/
theorem SettledSequence1.tickAqla_eq (hs : SettledSequence1 P C ch) :
    tickAqla ch = if tickCount ch = C.toNat then false else if tickCount ch = 0 then true else ch.aqla := by
  have hact (prde ca zro : Bool) : tickAction .up (tickDir ch) (aqActions runnerAqTable 1 .up) zro prde ca =
      if ca then .clear else if zro then .set else .noAct := by
    cases prde <;> cases ca <;> cases zro <;> rfl
  rw [tickAqla, hs.mode, hs.aqa, hs.tickCmpa_eq, hact]
  simp only [beq_iff_eq, tickZro]
  split
  · rfl
  · split <;> rfl

/-- From a count 0 that set the latch unless the compare is 0, the latch is 1 below the compare. -/
theorem SettledSequence1.latch (hs : SettledSequence1 P C ch) (h0 : ch.ctr = 0) (hl : ch.aqla = decide (C ≠ 0))
    (c : Config) {k : Nat} (hk : k ≤ P.toNat) : ((tickChannel c)^[k] ch).aqla = decide (k < C.toNat) := by
  induction k with
  | zero =>
    simpa only [toNat_pos_iff, Function.iterate_zero_apply] using hl
  | succ k ih =>
    have hcount : tickCount ((tickChannel c)^[k] ch) = k + 1 := by
      rw [← tickChannel_ctr_toNat c, ← Function.iterate_succ_apply' (tickChannel c), hs.sawtooth_count h0 c hk]
    rw [Function.iterate_succ_apply', tickChannel_aqla, (hs.iterate c k).tickAqla_eq, hcount, ih (by omega),
      if_neg k.succ_ne_zero]
    split
    · simp only [Bool.false_eq, decide_eq_false_iff_not]
      omega
    · rw [decide_eq_decide]
      omega

/-- At the wrap it is set again unless the compare is 0. -/
theorem SettledSequence1.latch_wrap (hs : SettledSequence1 P C ch) (h0 : ch.ctr = 0) (c : Config) :
    ((tickChannel c)^[P.toNat + 1] ch).aqla = decide (C ≠ 0) := by
  rw [Function.iterate_succ_apply', tickChannel_aqla, (hs.iterate c _).tickAqla_eq, hs.sawtooth_wrap h0]
  simp only [← toNat_pos_iff, if_true]
  split
  · next hC => simp [← hC]
  · next hC => exact (decide_eq_true (Nat.pos_of_ne_zero (Ne.symm hC))).symm

end

/-! ## The pins (R216 to R219) -/

section
variable {c : Config} {ch : Channel}

/-- With the dead band Full one of its outputs is at the inactive level: A needs its input high, B needs it low (R218). -/
theorem deadBand_full (hm : ch.dbOut = .full) (a b : Bool) :
    (deadBand ch a b).1 = ch.dbPol ∨ (deadBand ch a b).2 = ch.dbPol := by
  cases a with
  | false => left; cases hp : ch.dbPol <;> simp [deadBand, hm, hp, redOut]
  | true => right; cases hp : ch.dbPol <;> simp [deadBand, hm, hp, fedOut]

/-- A pin at the polarity's level is not at the active one (R190). -/
theorem overlap_eq_false (h : ch.pinA = pinOf ch.dbPol ∨ ch.pinB = pinOf ch.dbPol) : overlap ch = false := by
  cases hp : ch.dbPol <;> rw [hp] at h <;> obtain h | h := h <;> simp [overlap, pinOf, hp, h]

/-! ### The passive state (R190, R195, R199) -/

/-- The safe force drives the safe level, whatever the latch. -/
theorem forced_safeForceOf (latch : Bool) : forced (safeForceOf ch) latch = ch.dbPol := by
  cases hp : ch.dbPol <;> simp [safeForceOf, forced, hp]

theorem tripPin_safeTripOf (v : Bool) : tripPin (safeTripOf ch) v = safePin ch := by
  cases hp : ch.dbPol <;> simp [safeTripOf, safePin, tripPin, hp]

/-- The safe levels and forces turn on the dead-band polarity alone. -/
theorem safeForceOf_congr {x : Channel} (h : x.dbPol = ch.dbPol) : safeForceOf x = safeForceOf ch := by
  simp [safeForceOf, h]

/-- A load from an equal shadow changes nothing. -/
theorem passive_tick (hp : passive ch) (c : Config) : passive (tickChannel c ch) := by
  obtain ⟨hcsf, hcsfSh, hout, houtSh⟩ := hp
  have hsafe : safeForceOf (tickChannel c ch) = safeForceOf ch := safeForceOf_congr (tickChannel_dbPol c ch)
  refine ⟨?_, ?_, ?_, ?_⟩
  · rw [hsafe, tickChannel_csf, tickCsf, hcsf, hcsfSh, ite_self]
  · rw [hsafe, tickChannel_csfSh, hcsfSh]
  · rw [tickChannel_dbOut, hout, houtSh, ite_self]
  · rw [tickChannel_dbOutSh, houtSh]

/-- In the passive state both dead-band outputs are at the safe level: the dead band is bypassed, and both outputs forced. -/
theorem tickDeadBand_passive (hp : passive ch) (c : Config) : tickDeadBand c ch = (ch.dbPol, ch.dbPol) := by
  obtain ⟨-, -, hout, -⟩ := passive_tick hp c
  obtain ⟨hcsf, hcsfSh, -, -⟩ := hp
  have hforce : tickCsf ch = ⟨safeForceOf ch, safeForceOf ch⟩ := by rw [tickCsf, hcsf, hcsfSh, ite_self]
  rw [tickDeadBand, deadBand, hout, tickInput, hforce, forced_safeForceOf, forced_safeForceOf]

/-- A passive cluster with the registers of `ch` that its pins turn on. -/
structure PassiveAs (ch x : Channel) : Prop where
  passive : passive x
  dbPol : x.dbPol = ch.dbPol
  tzOst : x.tzOst = ch.tzOst
  tzA : x.tzA = ch.tzA
  tzB : x.tzB = ch.tzB

theorem PassiveAs.tick {x : Channel} (h : PassiveAs ch x) (c : Config) : PassiveAs ch (tickChannel c x) where
  passive := passive_tick h.passive c
  dbPol := (tickChannel_dbPol c x).trans h.dbPol
  tzOst := (tickChannel_tzOst c x).trans h.tzOst
  tzA := (tickChannel_tzA c x).trans h.tzA
  tzB := (tickChannel_tzB c x).trans h.tzB

theorem PassiveAs.iterate (hp : Spec.passive ch) (c : Config) (n : Nat) : PassiveAs ch ((tickChannel c)^[n] ch) :=
  Function.Iterate.rec (PassiveAs ch) ⟨hp, rfl, rfl, rfl, rfl⟩ (fun _ h => h.tick c) n

/-- Both pins after a tick of a passive cluster (R219). -/
theorem PassiveAs.pins {x : Channel} (h : PassiveAs ch x) (c : Config) :
    (tickChannel c x).pinA = (if ch.tzOst then tripPin ch.tzA ch.dbPol else safePin ch) ∧
      (tickChannel c x).pinB = (if ch.tzOst then tripPin ch.tzB ch.dbPol else safePin ch) := by
  rw [tickChannel_pinA, tickChannel_pinB, tickDeadBand_passive h.passive, h.tzOst, h.tzA, h.tzB, h.dbPol]
  exact ⟨rfl, rfl⟩

end

/-! ## The obligations -/

/-- Settles O24: the count up to the period, and the wrap. -/
theorem sawtoothPeriodLength : Obligations.SawtoothPeriodLength := by
  intro cfg ch hm _ hsh h0
  have hs : Settled .up ch.prd ch := ⟨hm, rfl, hsh⟩
  refine ⟨fun k hk => hs.sawtooth_count h0 cfg hk, ?_⟩
  rw [Function.iterate_succ_apply', tickChannel_ctr, hs.sawtooth_wrap h0]
  rfl

/-- Settles O25: the climb to the period and the descent from it. -/
theorem symmetricPeriodLength : Obligations.SymmetricPeriodLength := by
  intro cfg ch hm hp hsh h0 hd
  have hs : Settled .upDown ch.prd ch := ⟨hm, rfl, hsh⟩
  refine ⟨fun k hk => (hs.symmetric_climb hp h0 hd cfg hk).1, fun k hk => (hs.symmetric_descend hp h0 hd cfg hk).1, ?_⟩
  rw [two_mul, (hs.symmetric_descend hp h0 hd cfg le_rfl).2]
  simp

/-- Settles O26: the counter stays within the old period, and is 0 at the tick that loads a new one. -/
theorem counterStaysWithinPeriod : Obligations.CounterStaysWithinPeriod := by
  intro cfg ch hp hsh hle
  rw [tickChannel_ctr_toNat, tickChannel_prd]
  split
  · next hz =>
    have hzero : tickCount ch = 0 := by simpa [tickZro] using hz.2
    exact ⟨hsh, by omega⟩
  · exact ⟨hp, nextCount_le (toNat_pos_iff.mpr hp).ne' hle⟩

/-- Settles O27: the events are those of R212, and each register is a choice between itself and its shadow. -/
theorem shadowLoadsAtEvents : Obligations.ShadowLoadsAtEvents := by
  intro cfg ch t fire
  have hfire (le : LoadEvent) : fires le (tickZro ch) (tickPrde ch) = true ↔ fire le := by
    rw [fires_iff, tickZro_iff (c := cfg), tickPrde_iff (c := cfg)]
  have hzero : tickZro ch = true ↔ t.ctr = 0 := tickZro_iff
  simp only [← hfire, ← hzero]
  refine ⟨fun h => ?_, fun h => ?_, fun h => ?_, fun h => ?_, fun h => ?_, fun h => ?_, fun h => ?_, fun h => ?_,
    tickChannel_prdSh cfg ch, tickChannel_cmpaSh cfg ch, tickChannel_dbOutSh cfg ch, tickChannel_csfSh cfg ch⟩
  · exact (tickChannel_prd cfg ch).trans (if_pos h)
  · exact (tickChannel_prd cfg ch).trans (if_neg h)
  · exact (tickChannel_cmpa cfg ch).trans (if_pos h)
  · exact (tickChannel_cmpa cfg ch).trans (if_neg h)
  · exact (tickChannel_dbOut cfg ch).trans (if_pos h)
  · exact (tickChannel_dbOut cfg ch).trans (if_neg h)
  · exact (tickChannel_csf cfg ch).trans (if_pos h)
  · exact (tickChannel_csf cfg ch).trans (if_neg h)

/-- Settles O28: one of the dead-band outputs is at the inactive level, and the pins show them. -/
theorem pinsDoNotOverlap : Obligations.PinsDoNotOverlap := by
  intro cfg ch hm ht
  rw [tickChannel_tzOst] at ht
  refine overlap_eq_false ?_
  rw [tickChannel_pinA, tickChannel_pinB, ht, tickDeadBand]
  exact (deadBand_full hm _ _).imp (congrArg pinOf) (congrArg pinOf)

/-- Settles O29: the passive state is an invariant of the tick, and the pins are those of the last one. -/
theorem passiveStateHoldsSafeLevel : Obligations.PassiveStateHoldsSafeLevel := by
  intro cfg ch hp n t
  have ht : t = tickChannel cfg ((tickChannel cfg)^[n] ch) := Function.iterate_succ_apply' ..
  have hn : PassiveAs ch ((tickChannel cfg)^[n] ch) := .iterate hp cfg n
  obtain ⟨hpass, hpol, host, -, -⟩ := hn.tick cfg
  obtain ⟨hA, hB⟩ := hn.pins cfg
  rw [ht, hA, hB]
  refine ⟨hpass, hpol, host, fun h => ?_, fun h ha hb => ?_, fun h ha hb => ?_⟩
  · simp [h]
  · simp [h, ha, hb, tripPin_safeTripOf]
  · simp [h, ha, hb, tripPin]

/-- Settles O30: the latch over the period, and at the wrap. -/
theorem sawtoothDutyFraction : Obligations.SawtoothDutyFraction := by
  intro cfg ch hm _ hsh hcmp _ haqa h0 hl
  have hs : SettledSequence1 ch.prd ch.cmpa ch := ⟨⟨hm, rfl, hsh⟩, rfl, hcmp, haqa⟩
  exact ⟨fun k hk => hs.latch h0 hl cfg hk, hs.latch_wrap h0 cfg⟩

end Sys2Proof.Proofs

/-! SUPPORT. Two statements of 41_memgrd.md, on the reads of a payload and on a guard after MG.COMPLW, and the one of
30_encoding.md on the transport bytes of a command (R100). -/

namespace Sys2Proof.Proofs

open Machine Spec

/-! ## Transport (R73, R100) -/

/-- The four bytes of a word, put together again. -/
theorem wordOfBytes_extractLsb' (w : Word) :
    wordOfBytes (w.extractLsb' 0 8) (w.extractLsb' 8 8) (w.extractLsb' 16 8) (w.extractLsb' 24 8) = w := by
  have h32 : w.extractLsb' 24 8 ++ w.extractLsb' 16 8 = w.extractLsb' 16 16 :=
    BitVec.extractLsb'_append_extractLsb'_eq_extractLsb' rfl
  have h321 : w.extractLsb' 16 16 ++ w.extractLsb' 8 8 = w.extractLsb' 8 24 :=
    BitVec.extractLsb'_append_extractLsb'_eq_extractLsb' rfl
  rw [wordOfBytes, h32, h321]
  exact BitVec.extractLsb'_append_extractLsb'

/-- The header word and the operand word, put together again. -/
theorem header_append_opndField (c : Command) : c.extractLsb' 32 32 ++ opndField c = c :=
  BitVec.extractLsb'_append_extractLsb'

/-! ## A guard's token -/

section
variable {s t : State} {h : Nat} {g g' : Guard}

theorem resOf_answered (v : Word) (s : State) : resOf (answered v s) = v := by
  cases ha : s.hiActive <;> simp [resOf, answered, ha]

@[simp] theorem answered_guards (v : Word) (s : State) : (answered v s).guards = s.guards := by
  cases ha : s.hiActive <;> simp [answered, ha]

@[simp] theorem returned_guards (s : State) : (returned s).guards = s.guards := by
  cases ha : s.hiActive <;> simp [returned, ha]

/-- A ready guard is ready once its token, its mask or its payload has been written. -/
theorem guardReady_of_set (hr : GuardReady s h g) (ht : t.guards = s.guards.set h g') (hi : g'.init = g.init)
    (hc : g'.conf = g.conf) : GuardReady t h g' where
  found := by rw [ht, List.getElem?_set_self (List.getElem?_eq_some_iff.mp hr.found).1]
  init := hi.trans hr.init
  conf := hc.trans hr.conf

/-- MG.COMPLW leaves the guard ready with its token set (R124). -/
theorem exists_mgComplw (hr : GuardReady s h g) :
    ∃ t, exec (.mgComplw h) s = .next t ∧ GuardReady t h { g with ready := true } :=
  ⟨_, exec_mgComplw hr, guardReady_of_set hr (returned_guards _) rfl rfl⟩

/-- MG.BEGINW answers whether the slot is empty, in both directions (R123). -/
theorem exists_mgBeginw (hr : GuardReady s h g) :
    ∃ t, exec (.mgBeginw h) s = .next t ∧ resOf t = boolWord (!g.ready) := by
  cases hd : g.dir with
  | lowToHigh => exact ⟨_, (exec_mgBeginw_lowToHigh hr hd).trans (beginMasked_eq ..), resOf_answered ..⟩
  | highToLow => exact ⟨_, (exec_mgBeginw_highToLow hr hd).trans (beginUnmasked_eq ..), resOf_answered ..⟩

/-- MG.BEGINR answers whether an item is present, and consumes nothing, in both directions (R125, C2). -/
theorem exists_mgBeginr (hr : GuardReady s h g) :
    ∃ t, exec (.mgBeginr h) s = .next t ∧ resOf t = boolWord g.ready ∧
      ∃ g', GuardReady t h g' ∧ g'.ready = g.ready := by
  cases hd : g.dir with
  | highToLow =>
    exact ⟨_, (exec_mgBeginr_highToLow hr hd).trans (beginMasked_eq ..), resOf_answered ..,
      { g with saved := s.ie }, guardReady_of_set hr (answered_guards ..) rfl rfl, rfl⟩
  | lowToHigh =>
    exact ⟨_, (exec_mgBeginr_lowToHigh hr hd).trans (beginUnmasked_eq ..), resOf_answered ..,
      g, ⟨by rw [answered_guards, hr.found], hr.init, hr.conf⟩, rfl⟩

end

/-! ## The obligations -/

/-- Settles O5: the header word and the operand word are each put together from their bytes. -/
theorem transportBytesDecode : Obligations.TransportBytesDecode := by
  intro c rest
  show (decode (wordOfBytes _ _ _ _ ++ wordOfBytes _ _ _ _), rest) = _
  rw [wordOfBytes_extractLsb', wordOfBytes_extractLsb', header_append_opndField]

/-- Settles O37: the read inside the payload by what is stored, and the read outside it. -/
theorem payloadRead : Obligations.PayloadRead := by
  intro s h index g hr
  refine ⟨fun v hi hv => ?_, fun hi hn => ?_, fun hi => ?_⟩
  · rw [exec_mgPldrd_of_lt hr hi, finishWith_eq, memRead, hv, Option.getD_some]
  · rw [exec_mgPldrd_of_lt hr hi, finishWith_eq, memRead, hn, Option.getD_none]
  · exact ((onGuard_of_ready hr _ _).trans (if_neg (by omega))).trans (raiseFault_eq ..)

/-- Settles O39: MG.COMPLW leaves a ready guard with its token set, and MG.BEGINR leaves such a guard again. -/
theorem noDoubleBuffering : Obligations.NoDoubleBuffering := by
  intro s h g hr
  obtain ⟨t, ht, hready⟩ := exists_mgComplw hr
  obtain ⟨u, hu, hures⟩ := exists_mgBeginw hready
  obtain ⟨v, hv, hvres, g', hg', htoken⟩ := exists_mgBeginr hready
  obtain ⟨w, hw, hwres, -⟩ := exists_mgBeginr hg'
  exact ⟨t, u, v, w, ht, hu, hures, hv, hvres, hw, by rw [hwres, htoken]; rfl⟩

end Sys2Proof.Proofs
